-- ==== Sys2Proof/Word.lean ====
section
/-! DEFINITION. The word types of the unit. -/

namespace Sys2Proof

/-- An operand or result port value: `XLEN` = 64 bits (R8, R21, R22). -/
abbrev Word := BitVec 64

/-- The operand of a 32-bit remover, `req.a[31:0]` (R21). -/
abbrev Half := BitVec 32

/-- An operation code: `OPW` = 6 bits (R8, R21). -/
abbrev Opcode := BitVec 6

end Sys2Proof
end

