-- ==== Sys2Proof/Syntax.lean ====
section
/-! DEFINITION. Requests, the instructions of `spec/opcode_table.json`, and the lines of the assembler. -/

namespace Sys2Proof

/-- One request, the record of R21. -/
structure Request where
  /-- `req.op`, the operation code. -/
  op : Opcode
  /-- `req.a`, the first operand. -/
  a  : Word
  /-- `req.b`, the second operand. -/
  b  : Word
deriving DecidableEq, Repr

/-- The 23 operations of R66, in the table's order. An operation carries the operand bits its format reads (R61)
and no others: `n` is `req.a[31:0]` for a 32-bit remover and `req.a` for a 64-bit one, `x`, `y` are `req.a`,
`req.b` (log 15). -/
inductive Instr where
  | rtz32Naive (n : Half)
  | rtz32Gm (n : Half)
  | rtz32Lemire (n : Half)
  | rtz32Ggm (n : Half)
  | rtz32Naive21 (n : Half)
  | rtz32Gm21 (n : Half)
  | rtz32Lemire21 (n : Half)
  | rtz32Ggm21 (n : Half)
  | rtz32Base (n : Half)
  | rtz64Naive (n : Word)
  | rtz64Gm (n : Word)
  | rtz64Lemire (n : Word)
  | rtz64Ggm (n : Word)
  | rtz64Naive21 (n : Word)
  | rtz64Gm21 (n : Word)
  | rtz64Lemire21 (n : Word)
  | rtz64Ggm21 (n : Word)
  | rtz64Naive821 (n : Word)
  | rtz64Gm821 (n : Word)
  | rtz64Lemire821 (n : Word)
  | rtz64Ggm821 (n : Word)
  | rtz64Base (n : Word)
  | wmul (x y : Word)
deriving DecidableEq, Repr

/-- The technique of a remover, sub-field `t` of R62. -/
inductive Technique where
  /-- naive (MOD), `t` = 00. -/
  | naive
  /-- granlund_montgomery, rotate-magic (ROT), `t` = 01. -/
  | gm
  /-- lemire, wide-multiply compare (WM), `t` = 10. -/
  | lemire
  /-- generalized_granlund_montgomery, shift-magic (SH), `t` = 11. -/
  | ggm
deriving DecidableEq, Repr

/-- The peel schedule of a remover, sub-field `g` of R62 (without `g` = 11, the baseline). -/
inductive Granularity where
  /-- One digit per step, `g` = 00. -/
  | one
  /-- Two digits per step, then at most one, `g` = 01. -/
  | twoOne
  /-- Eight digits first, then 2-1, `g` = 10; 64-bit only. -/
  | eightTwoOne
deriving DecidableEq, Repr

/-- The part `<V>` of a remover's mnemonic (R70, R71): a stem with a suffix, or `BASE`. -/
inductive Variant where
  | peel (t : Technique) (g : Granularity)
  | base
deriving DecidableEq, Repr

/-- The four classes of reserved operation codes, the rows of R67's table. They "all behave alike". -/
inductive Reserved where
  /-- 0x08 to 0x0B: granularity 8-2-1 with width 32. -/
  | eightDigitWidth32
  /-- 0x0D to 0x0F: the baseline with a technique other than 00, width 32. -/
  | baselineTechnique32
  /-- 0x1D to 0x1F: the baseline with a technique other than 00, width 64. -/
  | baselineTechnique64
  /-- 0x21 to 0x3F: `cls` = 1 with any other bit set. -/
  | wideMultiplyOtherBits
deriving DecidableEq, Repr

/-- What decode answers (R65): an operation, or that the code is reserved, and why. -/
inductive Decoded where
  | instr (i : Instr)
  | reserved (why : Reserved)
deriving DecidableEq, Repr

/-- A line of the assembler (R70): one of three forms, its operands unsigned literals of any size (log 16). -/
inductive AsmLine where
  /-- `WMUL <x>, <y>` -/
  | wmul (x y : Nat)
  /-- `RTZ32.<V> <n>` -/
  | rtz32 (v : Variant) (n : Nat)
  /-- `RTZ64.<V> <n>` -/
  | rtz64 (v : Variant) (n : Nat)
deriving DecidableEq, Repr

end Sys2Proof
end

