-- ==== Sys2Proof/WellFormed.lean ====
section
/-! DEFINITION. What the assembler accepts (R70), and the requests it writes. An `Instr` needs no check of its own:
its operands' types are exactly the operand widths of R61. -/

namespace Sys2Proof

/-- R67, R71: width 32 has no 8-2-1 mnemonic. -/
def Variant.existsAt32 : Variant → Bool
  | .peel _ .eightTwoOne => false
  | .peel _ .one => true
  | .peel _ .twoOne => true
  | .base => true

/-- R70: the literal of an operand fits the operand; "`<n>` of an `RTZ32` line must be below 2^32"; the mnemonic
is one of R66's. -/
def AsmLine.wellFormed : AsmLine → Bool
  | .wmul x y => decide (x < 2 ^ 64) && decide (y < 2 ^ 64)
  | .rtz32 v n => v.existsAt32 && decide (n < 2 ^ 32)
  | .rtz64 _ n => decide (n < 2 ^ 64)

/-- R70: "The assembler writes 0 into every ignored bit". True of the requests in which every bit that the
operation ignores is 0: `req.b` of a remover and `req.a[63:32]` of a 32-bit remover. "The unit does not require
that (rule R68)". -/
def Request.ignoredBitsZero (r : Request) : Bool :=
  if r.op.getLsbD 5 then true
  else if r.op.getLsbD 4 then decide (r.b = 0#64)
  else decide (r.b = 0#64) && decide (r.a.extractLsb' 32 32 = 0#32)

end Sys2Proof
end

