-- ==== Sys2Proof/Decode.lean ====
section
/-! DEFINITION. The canonical request word (R23), decode (R65), and after it the encoder (R66, R70). Decode is
written from R65's sub-fields, encode from R66's table of whole codes. -/

namespace Sys2Proof

/-! ## The canonical request word -/

/-- R23: the request word `req.op ‖ req.a ‖ req.b`, 134 bits. -/
def Request.word (r : Request) : BitVec 134 := (r.op ++ r.a ++ r.b : BitVec (6 + 64 + 64))

/-- R23: the fields of a request word: `op` in bits 133:128, `a` in bits 127:64, `b` in bits 63:0. -/
def Request.ofWord (w : BitVec 134) : Request where
  op := w.extractLsb' 128 6
  a  := w.extractLsb' 64 64
  b  := w.extractLsb' 0 64

/-! ## Decode -/

/-- R62: sub-field `cls`, bit 5: 0 = remover, 1 = wide multiply. -/
def opCls (op : Opcode) : BitVec 1 := op.extractLsb' 5 1

/-- R62: sub-field `w`, bit 4: 0 = width 32, 1 = width 64. -/
def opW (op : Opcode) : BitVec 1 := op.extractLsb' 4 1

/-- R62: sub-field `g`, bits 3:2. -/
def opG (op : Opcode) : BitVec 2 := op.extractLsb' 2 2

/-- R62: sub-field `t`, bits 1:0. -/
def opT (op : Opcode) : BitVec 2 := op.extractLsb' 0 2

/-- R62: the technique that `t` names. -/
def techniqueOf (t : BitVec 2) : Technique :=
  if t = 0b00#2 then .naive else if t = 0b01#2 then .gm else if t = 0b10#2 then .lemire else .ggm

/-- R62, R65: the variant that `g` and `t` name; none where `g` = 11 (baseline) comes with `t` other than 00. -/
def variantOf (g t : BitVec 2) : Option Variant :=
  if g = 0b11#2 then (if t = 0b00#2 then some .base else none)
  else some (.peel (techniqueOf t)
    (if g = 0b00#2 then .one else if g = 0b01#2 then .twoOne else .eightTwoOne))

/-- The 32-bit remover of a variant (R66); none for 8-2-1, which is "64-bit only" (R67). -/
def instr32 (n : Half) : Variant → Option Instr
  | .peel .naive .one => some (.rtz32Naive n)
  | .peel .gm .one => some (.rtz32Gm n)
  | .peel .lemire .one => some (.rtz32Lemire n)
  | .peel .ggm .one => some (.rtz32Ggm n)
  | .peel .naive .twoOne => some (.rtz32Naive21 n)
  | .peel .gm .twoOne => some (.rtz32Gm21 n)
  | .peel .lemire .twoOne => some (.rtz32Lemire21 n)
  | .peel .ggm .twoOne => some (.rtz32Ggm21 n)
  | .peel _ .eightTwoOne => none
  | .base => some (.rtz32Base n)

/-- The 64-bit remover of a variant (R66). -/
def instr64 (n : Word) : Variant → Instr
  | .peel .naive .one => .rtz64Naive n
  | .peel .gm .one => .rtz64Gm n
  | .peel .lemire .one => .rtz64Lemire n
  | .peel .ggm .one => .rtz64Ggm n
  | .peel .naive .twoOne => .rtz64Naive21 n
  | .peel .gm .twoOne => .rtz64Gm21 n
  | .peel .lemire .twoOne => .rtz64Lemire21 n
  | .peel .ggm .twoOne => .rtz64Ggm21 n
  | .peel .naive .eightTwoOne => .rtz64Naive821 n
  | .peel .gm .eightTwoOne => .rtz64Gm821 n
  | .peel .lemire .eightTwoOne => .rtz64Lemire821 n
  | .peel .ggm .eightTwoOne => .rtz64Ggm821 n
  | .base => .rtz64Base n

/-- R65: decode, total on every request. Which operation it is depends on `req.op` alone; the operands are assembled
as R64 says: `x = req.a`, `y = req.b`, `n = req.a` for width 64, `n = req.a[31:0]` for width 32. -/
def decode (r : Request) : Decoded :=
  if r.op = 0x20#6 then .instr (.wmul r.a r.b)
  else if opCls r.op = 1#1 then .reserved .wideMultiplyOtherBits
  else match variantOf (opG r.op) (opT r.op) with
    | none =>
      if opW r.op = 0#1 then .reserved .baselineTechnique32 else .reserved .baselineTechnique64
    | some v =>
      if opW r.op = 0#1 then
        match instr32 (r.a.extractLsb' 0 32) v with
        | none => .reserved .eightDigitWidth32
        | some i => .instr i
      else .instr (instr64 r.a v)

/-- Decode of a canonical request word (R23, R65). -/
def decodeWord (w : BitVec 134) : Decoded := decode (Request.ofWord w)

/-! ## Encode -/

/-- R66: the operation code of each operation. -/
def Instr.op : Instr → Opcode
  | .rtz32Naive _ => 0x00#6
  | .rtz32Gm _ => 0x01#6
  | .rtz32Lemire _ => 0x02#6
  | .rtz32Ggm _ => 0x03#6
  | .rtz32Naive21 _ => 0x04#6
  | .rtz32Gm21 _ => 0x05#6
  | .rtz32Lemire21 _ => 0x06#6
  | .rtz32Ggm21 _ => 0x07#6
  | .rtz32Base _ => 0x0C#6
  | .rtz64Naive _ => 0x10#6
  | .rtz64Gm _ => 0x11#6
  | .rtz64Lemire _ => 0x12#6
  | .rtz64Ggm _ => 0x13#6
  | .rtz64Naive21 _ => 0x14#6
  | .rtz64Gm21 _ => 0x15#6
  | .rtz64Lemire21 _ => 0x16#6
  | .rtz64Ggm21 _ => 0x17#6
  | .rtz64Naive821 _ => 0x18#6
  | .rtz64Gm821 _ => 0x19#6
  | .rtz64Lemire821 _ => 0x1A#6
  | .rtz64Ggm821 _ => 0x1B#6
  | .rtz64Base _ => 0x1C#6
  | .wmul _ _ => 0x20#6

/-- R61, R70: the `a` field of an operation's request: `zext_64(n)` for a 32-bit remover. -/
def Instr.operandA : Instr → Word
  | .rtz32Naive n | .rtz32Gm n | .rtz32Lemire n | .rtz32Ggm n
  | .rtz32Naive21 n | .rtz32Gm21 n | .rtz32Lemire21 n | .rtz32Ggm21 n | .rtz32Base n => n.setWidth 64
  | .rtz64Naive n | .rtz64Gm n | .rtz64Lemire n | .rtz64Ggm n
  | .rtz64Naive21 n | .rtz64Gm21 n | .rtz64Lemire21 n | .rtz64Ggm21 n
  | .rtz64Naive821 n | .rtz64Gm821 n | .rtz64Lemire821 n | .rtz64Ggm821 n | .rtz64Base n => n
  | .wmul x _ => x

/-- R61, R70: the `b` field of an operation's request: 0 for a remover. -/
def Instr.operandB : Instr → Word
  | .rtz32Naive _ | .rtz32Gm _ | .rtz32Lemire _ | .rtz32Ggm _
  | .rtz32Naive21 _ | .rtz32Gm21 _ | .rtz32Lemire21 _ | .rtz32Ggm21 _ | .rtz32Base _ => 0#64
  | .rtz64Naive _ | .rtz64Gm _ | .rtz64Lemire _ | .rtz64Ggm _
  | .rtz64Naive21 _ | .rtz64Gm21 _ | .rtz64Lemire21 _ | .rtz64Ggm21 _
  | .rtz64Naive821 _ | .rtz64Gm821 _ | .rtz64Lemire821 _ | .rtz64Ggm821 _ | .rtz64Base _ => 0#64
  | .wmul _ y => y

/-- The request of an operation, every ignored bit 0 (R66, R70). -/
def encode (i : Instr) : Request where
  op := i.op
  a  := i.operandA
  b  := i.operandB

/-- The canonical request word of an operation (R23, R66, R70). -/
def encodeWord (i : Instr) : BitVec 134 := (encode i).word

/-- R70: the operation that an assembler line stands for; none where the assembler refuses the line. -/
def assemble (l : AsmLine) : Option Instr :=
  if l.wellFormed then
    match l with
    | .wmul x y => some (.wmul (BitVec.ofNat 64 x) (BitVec.ofNat 64 y))
    | .rtz32 v n => instr32 (BitVec.ofNat 32 n) v
    | .rtz64 v n => some (instr64 (BitVec.ofNat 64 n) v)
  else none

/-! ## The numbering of `spec/opcode_table.json` -/

/-- The request whose bits are `w` as the opcode table numbers them. A row's `match` and `fixed` give the 6-bit `op`
field alone, bit 0 its least significant bit, so below 134 bits `w` holds `op` in bits 5:0 and both operands are 0;
a row's `word_match` gives the whole canonical word of 134 bits (log 10). -/
def requestOfTableWord (nbits w : Nat) : Request :=
  if nbits < 134 then { op := BitVec.ofNat 6 w, a := 0#64, b := 0#64 }
  else Request.ofWord (BitVec.ofNat 134 w)

/-- The instruction decode reads from a table word; none where the code is reserved. -/
def decodeTableWord (nbits w : Nat) : Option Instr :=
  match decode (requestOfTableWord nbits w) with
  | .instr i => some i
  | .reserved _ => none

end Sys2Proof
end

