-- ==== Sys2Proof/Machine/Operands.lean ====
section
/-! DEFINITION. The arithmetic primitives of R14 on natural numbers, and the widths and divisors of the removers. -/

namespace Sys2Proof.Machine

/-- R14: `trunc_N(v)`. -/
def trunc (bits v : Nat) : Nat := v % 2 ^ bits

/-- R14: `lower32(v)`. -/
def lower32 (v : Nat) : Nat := v % 2 ^ 32

/-- R14: `v >> k`. -/
def shr (v k : Nat) : Nat := v / 2 ^ k

/-- R14: `v << k`, exact. -/
def shl (v k : Nat) : Nat := v * 2 ^ k

/-- R14: `rotr_N(v, r)` of an N-bit `v`, `0 < r < N`. -/
def rotr (bits v r : Nat) : Nat := shr v r + v % 2 ^ r * 2 ^ (bits - r)

/-- R14: `zext_64(v)`, for `v < 2^64`. -/
def zext64 (v : Nat) : Word := BitVec.ofNat 64 v

/-- The width `W` of a remover (R8). -/
inductive Width where
  | w32
  | w64
deriving DecidableEq, Repr

/-- `W` as a number of bits. -/
def Width.bits : Width → Nat
  | .w32 => 32
  | .w64 => 64

/-- The pairs `(W, d)` at which the divisibility tests exist (R130): the rows of the tables of R132, R135, R139. -/
inductive Site where
  | w32d10
  | w32d100
  | w64d10
  | w64d100
  | w64d1e8
deriving DecidableEq, Repr

/-- The width of a row. -/
def Site.width : Site → Width
  | .w32d10 => .w32
  | .w32d100 => .w32
  | .w64d10 => .w64
  | .w64d100 => .w64
  | .w64d1e8 => .w64

/-- The divisor `d` of a row: 10, 100 or 10^8. -/
def Site.divisor : Site → Nat
  | .w32d10 => 10
  | .w32d100 => 100
  | .w64d10 => 10
  | .w64d100 => 100
  | .w64d1e8 => 10 ^ 8

/-- The row of the one-digit test at a width. -/
def Width.by10 : Width → Site
  | .w32 => .w32d10
  | .w64 => .w64d10

/-- The row of the two-digit test at a width. -/
def Width.by100 : Width → Site
  | .w32 => .w32d100
  | .w64 => .w64d100

end Sys2Proof.Machine
end

