-- ==== Sys2Proof/Config.lean ====
section
/-! DEFINITION. What is fixed for the machine, and the values the spec leaves open. -/

namespace Sys2Proof

/-- The identity string of the operation set (R2). It is a name in the spec, not a readable register (R27). -/
def Config.identity : String := "WMRTZ-1"

/-- `rsp.r0` of a step that raises `IllegalOperation`, and of the response after a reset: "any 64-bit value"
(R241, V1, V2). A free value, a fresh one for each index (log 6, log 7; DESIGN CHOICE of form; safe in one run). -/
opaque Config.freeR0 : Nat → Word

/-- `rsp.r1` of a step that raises `IllegalOperation`, and of the response after a reset: "any 64-bit value"
(R241, V1, V2). A free value, a fresh one for each index (log 6, log 7; DESIGN CHOICE of form; safe in one run). -/
opaque Config.freeR1 : Nat → Word

/-- `rsp.fault` after a reset and before the next step: unspecified (R31, R270, V2). A free value
(log 7; DESIGN CHOICE of form; safe in one run). -/
opaque Config.freeFault : Nat → BitVec 1

/-- The open parameter `LATENCY(op, operands)` of R11: positive and finite, in unspecified units.
"No rule may depend on their value": nothing reads it (log 12; safe). -/
opaque Config.latency : Opcode → Word → Word → PNat

end Sys2Proof
end

