-- ==== Sys2Proof/Machine/State.lean ====
section
/-! DEFINITION. The machine's state, the ways a step can stop, and the state after reset. -/

namespace Sys2Proof.Machine

/-- One response, the record of R22. -/
structure Response where
  /-- `rsp.fault`, one bit: 1 when `req.op` selects no operation. -/
  fault : BitVec 1
  /-- `rsp.r1`: `high` for `WMUL`, `zext_64(removedCount)` for a remover. -/
  r1 : Word
  /-- `rsp.r0`: `low` for `WMUL`, `zext_64(trimmed)` for a remover. -/
  r0 : Word
deriving DecidableEq, Repr

/-- What the host does to the unit between two steps, or for one (log 1): it offers a request (R44), or it resets the
unit (R270, R271). -/
inductive HostEvent where
  | request (r : Request)
  | reset
deriving DecidableEq, Repr

/-- The state. The unit itself keeps nothing between steps (R20); the only named storage is the request and the
response (R24). The other fields are the model's own (R32 allows a model its own bookkeeping). -/
structure State where
  /-- `req.op`, `req.a`, `req.b` (R21): the request of the latest step, an input that the unit reads and never writes. -/
  req : Request
  /-- `rsp.fault`, `rsp.r1`, `rsp.r0` (R22): the response of the latest step. -/
  rsp : Response
  /-- The model's own: what the host does next, oldest first (R44, R270; log 1). -/
  inbox : List HostEvent
  /-- The model's own: whether `rsp` was produced by a step since the last reset (R31, V2; log 5). -/
  answered : Bool
  /-- The model's own: the index of the next free value (R241, V1; log 6). -/
  freeIndex : Nat
deriving DecidableEq, Repr

/-- How the machine can stop: it cannot. No operation faults (R240), and a reserved code is answered by a response whose
`fault` bit is set, after which the unit takes the next request (R241, R246). So there is no constructor (log 8). -/
inductive Fault : Type where
deriving DecidableEq, Repr

/-- Why the model gives an instruction no meaning. -/
inductive Refusal where
  /-- Raised by an arm of `exec` whose instruction has no meaning yet; safe (the machine stops there). No arm of this
  model raises it. -/
  | notModelled (mnemonic : String)
deriving DecidableEq, Repr

/-- The state after power-on. The spec gives no reset value: there is no state to reset (R31, R270), the request fields
are driven by the host and the response fields are unspecified. The zeros are the model's (log 3, log 4, log 6;
DESIGN CHOICE; unsafe). Nothing is offered yet (log 11) and no response has been produced. -/
def State.reset : State where
  req := { op := 0#6, a := 0#64, b := 0#64 }
  rsp := { fault := 0#1, r1 := 0#64, r0 := 0#64 }
  inbox := []
  answered := false
  freeIndex := 0

end Sys2Proof.Machine
end

