-- ==== Sys2Proof/Machine/Ops.lean ====
section
/-! DEFINITION. The named operations on the state: taking a request, answering it, raising `IllegalOperation`, and a
reset. There is no memory and no register file to operate on (R24, R29). -/

namespace Sys2Proof.Machine

/-! ## The canonical response word -/

/-- R23: the response word `rsp.fault ‖ rsp.r1 ‖ rsp.r0`, 129 bits. -/
def Response.word (p : Response) : BitVec 129 := (p.fault ++ p.r1 ++ p.r0 : BitVec (1 + 64 + 64))

/-! ## What the host offers -/

/-- What a step finds. -/
inductive Arrival where
  /-- The host offers nothing and does nothing. -/
  | idle
  /-- The host resets the unit; `s` is the state with that event taken. -/
  | reset (s : State)
  /-- The host offers a request; `s` is the state with it taken into the request fields. -/
  | request (s : State)
deriving DecidableEq, Repr

/-- The request fields take the offered request whole (R274), and the host goes on with `rest`. -/
def State.take (s : State) (r : Request) (rest : List HostEvent) : State :=
  { s with req := r, inbox := rest }

/-- R44: the unit takes the oldest thing the host offers. -/
def State.takeEvent (s : State) : Arrival :=
  match s.inbox with
  | [] => .idle
  | .reset :: rest => .reset { s with inbox := rest }
  | .request r :: rest => .request (s.take r rest)

/-! ## Answering -/

/-- R22, R63: the response of a defined operation: `fault` is 0, and the two results. -/
def State.respond (s : State) (r0 r1 : Word) : State :=
  { s with rsp := { fault := 0#1, r1 := r1, r0 := r0 }, answered := true }

/-- A `TrimResult` (R121): the trimmed value and how many zero digits were removed. -/
structure TrimResult where
  trimmed : Nat
  removedCount : Nat
deriving DecidableEq, Repr

/-- R123: where a remover's result goes: `r0 = zext_64(trimmed)`, `r1 = zext_64(removedCount)`, `fault = 0`. -/
def State.respondTrim (s : State) (t : TrimResult) : State :=
  s.respond (zext64 t.trimmed) (zext64 t.removedCount)

/-! ## The exception -/

/-- R241, `raise IllegalOperation`: `fault` is 1, `r0` and `r1` are any values (two fresh free values, log 6), "the step
ends; nothing else happens". Nothing is saved and control goes nowhere (R245); the next step does not see it (not
sticky). There is no return from it, because there is no trap to return from (R246). -/
def State.raiseIllegalOperation (s : State) : State :=
  { s with
    rsp := { fault := 1#1, r1 := Config.freeR1 s.freeIndex, r0 := Config.freeR0 s.freeIndex }
    answered := true
    freeIndex := s.freeIndex + 1 }

/-! ## Reset -/

/-- R270, R31: a reset between steps "is the identity on the (empty) unit state and leaves the response fields unspecified
until the next step" (log 7). -/
def State.resetUnit (s : State) : State :=
  { s with
    rsp :=
      { fault := Config.freeFault s.freeIndex, r1 := Config.freeR1 s.freeIndex, r0 := Config.freeR0 s.freeIndex }
    answered := false
    freeIndex := s.freeIndex + 1 }

end Sys2Proof.Machine
end

