-- ==== Sys2Proof/Machine/WideMultiply.lean ====
section
/-! DEFINITION. The wide multiply: the exact product (R100, R104), the portable decomposition (R101), and the meaning
of `WMUL`. -/

namespace Sys2Proof.Machine

/-- R100, R104: `wmul(x, y)` on natural numbers: the pair `(high, low)` of the exact product. -/
def wmulNat (x y : Nat) : Nat × Nat := (shr (x * y) 64, trunc 64 (x * y))

/-- R100: the pair `(high, low)` of the exact 128-bit product of two 64-bit operands. -/
def wmul (x y : Word) : Word × Word :=
  let p := wmulNat x.toNat y.toNat
  (zext64 p.1, zext64 p.2)

/-- The four 32 × 32 → 64 partial products of R101. -/
structure Partials where
  ac : Nat
  bc : Nat
  ad : Nat
  bd : Nat
deriving DecidableEq, Repr

/-- R101: `x = a·2^32 + b`, `y = c·2^32 + d`, and the four partial products. -/
def partials (x y : Nat) : Partials where
  ac := shr x 32 * shr y 32
  bc := lower32 x * shr y 32
  ad := shr x 32 * lower32 y
  bd := lower32 x * lower32 y

/-- R101: the middle column. -/
def intermediate (p : Partials) : Nat := shr p.bd 32 + lower32 p.ad + lower32 p.bc

/-- R101: `high`, an exact sum. -/
def portableHigh (p : Partials) : Nat := p.ac + shr (intermediate p) 32 + shr p.ad 32 + shr p.bc 32

/-- R101: `low`; the shift is truncated to 64 bits (conflict C8). -/
def portableLow (p : Partials) : Nat := trunc 64 (shl (intermediate p) 32) + lower32 p.bd

/-- R101: the portable decomposition. By R102 it is the same function as `wmul`, and R103 leaves no choice to observe. -/
def wmulPortable (x y : Word) : Word × Word :=
  let p := partials x.toNat y.toNat
  (zext64 (portableHigh p), zext64 (portableLow p))

/-- `WMUL x, y` (R100): `r0 = low`, `r1 = high`, no fault for any operands. -/
def execWmul (x y : Word) (s : State) : Host.Outcome State Fault Refusal :=
  .next (s.respond (wmul x y).2 (wmul x y).1)

end Sys2Proof.Machine
end

