-- ==== Sys2Proof/Machine/Divisibility.lean ====
section
/-! DEFINITION. The four divisibility tests MOD, ROT, WM, SH with their constants (R130 to R141). "A model must use
exactly these values" (R9). -/

namespace Sys2Proof.Machine

/-- What a test answers (R130): whether `d` divides `n`, and then the quotient. -/
structure TestResult where
  div : Bool
  q : Nat
deriving DecidableEq, Repr

/-- A test `T(W, d, n)` of R130, at the row `(W, d)`. -/
abbrev Tester := Site → Nat → TestResult

/-! ## MOD -/

/-- R131: the naive test. -/
def testMod : Tester := fun site n =>
  { div := decide (n % site.divisor = 0), q := n / site.divisor }

/-! ## ROT -/

/-- R132: `r = v2(d)`. -/
def twoPower : Site → Nat
  | .w32d10 => 1
  | .w32d100 => 2
  | .w64d10 => 1
  | .w64d100 => 2
  | .w64d1e8 => 8

/-- R132: `q_odd = d / 2^r`. -/
def oddPart : Site → Nat
  | .w32d10 => 5
  | .w32d100 => 25
  | .w64d10 => 5
  | .w64d100 => 25
  | .w64d1e8 => 390625

/-- R132: the multiplier `M`, the inverse of the odd part of `d` modulo `2^W` (conflict C1). -/
def rotMultiplier : Site → Nat
  | .w32d10 => 0xCCCCCCCD
  | .w32d100 => 0xC28F5C29
  | .w64d10 => 0xCCCCCCCCCCCCCCCD
  | .w64d100 => 0x8F5C28F5C28F5C29
  | .w64d1e8 => 0xC767074B22E90E21

/-- R132: the threshold `T = floor(2^W / d)`. -/
def rotThreshold : Site → Nat
  | .w32d10 => 429496729
  | .w32d100 => 42949672
  | .w64d10 => 1844674407370955161
  | .w64d100 => 184467440737095516
  | .w64d1e8 => 184467440737

/-- R133: the rotate-magic test. The comparison is `v <= T` (conflict C2). -/
def testRot : Tester := fun site n =>
  let p := trunc site.width.bits (n * rotMultiplier site)
  let v := rotr site.width.bits p (twoPower site)
  { div := decide (v ≤ rotThreshold site), q := v }

/-! ## WM -/

/-- R135: `k`. -/
def wideK : Site → Nat
  | .w32d10 => 3
  | .w32d100 => 5
  | .w64d10 => 3
  | .w64d100 => 7
  | .w64d1e8 => 26

/-- R135: `F = W + k`. -/
def wideF (site : Site) : Nat := site.width.bits + wideK site

/-- R135: `c = ceil(2^F / d)`; for `(64, 100)` it has 65 bits. -/
def wideMultiplier : Site → Nat
  | .w32d10 => 0xCCCCCCCD
  | .w32d100 => 0x51EB851F
  | .w64d10 => 0xCCCCCCCCCCCCCCCD
  | .w64d100 => 0x147AE147AE147AE15
  | .w64d1e8 => 0xABCC77118461CEFD

/-- R136: the wide-multiply compare test, on the exact product `P`. R136 says this "is the definition"; the forms with
one `wmul` follow (log 14). -/
def testWide : Tester := fun site n =>
  let p := n * wideMultiplier site
  let l := p % 2 ^ wideF site
  { div := decide (l < wideMultiplier site), q := shr p (wideF site) }

/-- R136, R202, R210: the test at W = 64 from one `wmul`, for a `c` below `2^64` (d = 10 and 10^8). -/
def testWideWmul (site : Site) (n : Nat) : TestResult :=
  let w := wmulNat n (wideMultiplier site)
  { div := decide (w.1 % 2 ^ wideK site = 0) && decide (w.2 < wideMultiplier site), q := shr w.1 (wideK site) }

/-- R136: `c_lo`, the low 64 bits of the 65-bit `c` of `(64, 100)`. -/
def wideLow100 : Nat := 0x47AE147AE147AE15

/-- R136, R206: the test at `(64, 100)` from one `wmul` and one exact addition. -/
def testWideWmul100 (n : Nat) : TestResult :=
  let w := wmulNat n wideLow100
  let sum := n + w.1
  { div := decide (sum % 128 = 0) || (decide (sum % 128 = 1) && decide (w.2 < wideLow100)), q := shr sum 7 }

/-! ## SH -/

/-- R139: `B = W + r`. -/
def shiftB (site : Site) : Nat := site.width.bits + twoPower site

/-- R139: `m'`, with `q_odd · m' ≡ 1 + 2^W (mod 2^B)`. -/
def shiftMultiplier : Site → Nat
  | .w32d10 => 0x1CCCCCCCD
  | .w32d100 => 0x2C28F5C29
  | .w64d10 => 0x1CCCCCCCCCCCCCCCD
  | .w64d100 => 0x38F5C28F5C28F5C29
  | .w64d1e8 => 0x99C767074B22E90E21

/-- R139: `T' = 2^r·Q + 1`. -/
def shiftThreshold : Site → Nat
  | .w32d10 => 858993459
  | .w32d100 => 171798689
  | .w64d10 => 3689348814741910323
  | .w64d100 => 737869762948382065
  | .w64d1e8 => 47223664828673

/-- R140: the `B`-bit product of the shift-magic test. -/
def shiftProduct (site : Site) (n : Nat) : Nat := trunc (shiftB site) (n * shiftMultiplier site)

/-- R140: the shift-magic test. -/
def testShift : Tester := fun site n =>
  let p := shiftProduct site n
  { div := decide (p < shiftThreshold site), q := shr p (twoPower site) }

/-- R140: the `B`-bit product at W = 64 from one `wmul`, with `top = m' >> 64`. -/
def shiftProductWmul (site : Site) (n : Nat) : Nat :=
  let w := wmulNat n (rotMultiplier site)
  (w.1 + n * shr (shiftMultiplier site) 64) % 2 ^ twoPower site * 2 ^ 64 + w.2

/-! ## By technique -/

/-- The test of each technique (the glossary's MOD, ROT, WM, SH). -/
def tester : Technique → Tester
  | .naive => testMod
  | .gm => testRot
  | .lemire => testWide
  | .ggm => testShift

end Sys2Proof.Machine
end

