-- ==== Sys2Proof/Machine/Peel.lean ====
section
/-! DEFINITION. The peel schedules (R145 to R147), the function they compute (R121, R122), the laws it owes (R151, R152), and the number of tests they
perform (R279). -/

namespace Sys2Proof.Machine

/-! ## What a remover computes -/

/-- R121, R122: `rtz(n)`: for `n > 0` the pair with `removedCount = max { k : 10^k divides n }` and
`trimmed = n / 10^removedCount`; `(0, 0)` for `n = 0`. (The greatest `k` up to `n`: `10^k` divides no `n > 0` below it.) -/
def rtz (n : Nat) : TrimResult :=
  if n = 0 then { trimmed := 0, removedCount := 0 }
  else
    let c := Nat.findGreatest (fun k => n % 10 ^ k = 0) n
    { trimmed := n / 10 ^ c, removedCount := c }

/-! ## The loop -/

/-- The loop of R145 and R146: while the test at `site` accepts, replace `n` by the quotient and add `digits` to the
count. `fuel` is how many tests it may perform; R148 bounds them (log 9). -/
def peelLoop (T : Tester) (site : Site) (digits : Nat) : (fuel n s : Nat) → Nat × Nat
  | 0, n, s => (n, s)
  | fuel + 1, n, s =>
    let t := T site n
    if t.div then peelLoop T site digits fuel t.q (s + digits) else (n, s)

/-- R148: the tests of a `peel1` loop: at most 9 (W = 32) or 19 (W = 64) accepted, and the failing one. -/
def Width.fuel1 : Width → Nat
  | .w32 => 10
  | .w64 => 20

/-- R148: the tests of a `peel21` loop: at most 4 (W = 32) or 9 (W = 64) accepted, and the failing one. -/
def Width.fuel21 : Width → Nat
  | .w32 => 5
  | .w64 => 10

/-! ## The schedules -/

/-- R145: one digit at a time. -/
def peel1 (T : Tester) (w : Width) (n : Nat) : TrimResult :=
  if n = 0 then { trimmed := 0, removedCount := 0 }
  else
    let e := peelLoop T w.by10 1 w.fuel1 n 0
    { trimmed := e.1, removedCount := e.2 }

/-- R146: the finisher: at most one more digit. -/
def finisher (T : Tester) (w : Width) (n s : Nat) : TrimResult :=
  let t := T w.by10 n
  if t.div then { trimmed := t.q, removedCount := s + 1 } else { trimmed := n, removedCount := s }

/-- R146: two digits at a time with a one-digit finisher. -/
def peel21 (T : Tester) (w : Width) (n : Nat) : TrimResult :=
  if n = 0 then { trimmed := 0, removedCount := 0 }
  else
    let e := peelLoop T w.by100 2 w.fuel21 n 0
    finisher T w e.1 e.2

/-- R147: the condition of the fast path: divisible by 10^8 and the quotient fits in 32 bits (conflict C3). -/
def fastPath (T : Tester) (n : Nat) : Bool :=
  (T .w64d1e8 n).div && decide ((T .w64d1e8 n).q ≤ 2 ^ 32 - 1)

/-- R147: eight digits first, W = 64 only: on the fast path the 32-bit 2-1 remover of the same technique on the quotient,
otherwise the 64-bit 2-1 remover on the original `n`. -/
def peel821 (T : Tester) (n : Nat) : TrimResult :=
  if n = 0 then { trimmed := 0, removedCount := 0 }
  else if fastPath T n then
    let e := peel21 T .w32 (T .w64d1e8 n).q
    { trimmed := e.trimmed, removedCount := e.removedCount + 8 }
  else peel21 T .w64 n

/-- R178, R212: the baseline: the identity. -/
def baseline (n : Nat) : TrimResult := { trimmed := n, removedCount := 0 }

/-! ## The laws a remover owes, as properties of the function from `n` to a `TrimResult` -/

/-- R151, the round-trip law at a width: `trimmed · 10^removedCount = n` as exact integers, for every `n` of the width,
0 included. -/
def SatisfiesRoundTrip (remover : Nat → TrimResult) (w : Width) : Prop :=
  ∀ n : Nat, n < 2 ^ w.bits → (remover n).trimmed * 10 ^ (remover n).removedCount = n

/-- R152, the maximality law at a width: `trimmed % 10 != 0` for every `n > 0` of the width. At `n = 0` it "is not
required", and the baseline "does **not** satisfy maximality". -/
def SatisfiesMaximality (remover : Nat → TrimResult) (w : Width) : Prop :=
  ∀ n : Nat, 0 < n → n < 2 ^ w.bits → (remover n).trimmed % 10 ≠ 0

/-! ## Work per step

R279 counts the tests a step performs. "No rule of the model depends on it": no meaning reads these (log 17). -/

/-- The tests of a loop, the failing one included. -/
def loopTests (T : Tester) (site : Site) : (fuel n : Nat) → Nat
  | 0, _ => 0
  | fuel + 1, n => if (T site n).div then loopTests T site fuel (T site n).q + 1 else 1

/-- R279: the tests of `peel1`; none for `n = 0`. -/
def peel1Tests (T : Tester) (w : Width) (n : Nat) : Nat :=
  if n = 0 then 0 else loopTests T w.by10 w.fuel1 n

/-- R279: the tests of `peel21`: the loop's, and one in the finisher; none for `n = 0`. -/
def peel21Tests (T : Tester) (w : Width) (n : Nat) : Nat :=
  if n = 0 then 0 else loopTests T w.by100 w.fuel21 n + 1

/-- R279: the tests of `peel821`: one by 10^8, then a `peel21`; none for `n = 0`. -/
def peel821Tests (T : Tester) (n : Nat) : Nat :=
  if n = 0 then 0
  else if fastPath T n then peel21Tests T .w32 (T .w64d1e8 n).q + 1
  else peel21Tests T .w64 n + 1

end Sys2Proof.Machine
end

