-- ==== Sys2Proof/Machine/Rtz32.lean ====
section
/-! DEFINITION. The meanings of the nine 32-bit removers (R170 to R178). Common to all: no flag, no exception, for every
operand (R120, R240); the result goes where R123 says. -/

namespace Sys2Proof.Machine

/-- `RTZ32.NAIVE n` (R170): naive (MOD), one digit at a time, W = 32. -/
def execRtz32Naive (n : Half) (s : State) : Host.Outcome State Fault Refusal :=
  .next (s.respondTrim (peel1 (tester .naive) .w32 n.toNat))

/-- `RTZ32.GM n` (R171): rotate-magic (ROT), one digit at a time, W = 32. -/
def execRtz32Gm (n : Half) (s : State) : Host.Outcome State Fault Refusal :=
  .next (s.respondTrim (peel1 (tester .gm) .w32 n.toNat))

/-- `RTZ32.LEMIRE n` (R172): wide-multiply compare (WM), one digit at a time, W = 32. -/
def execRtz32Lemire (n : Half) (s : State) : Host.Outcome State Fault Refusal :=
  .next (s.respondTrim (peel1 (tester .lemire) .w32 n.toNat))

/-- `RTZ32.GGM n` (R173): shift-magic (SH), one digit at a time, W = 32. -/
def execRtz32Ggm (n : Half) (s : State) : Host.Outcome State Fault Refusal :=
  .next (s.respondTrim (peel1 (tester .ggm) .w32 n.toNat))

/-- `RTZ32.NAIVE21 n` (R174): naive (MOD), two digits at a time, then at most one, W = 32. -/
def execRtz32Naive21 (n : Half) (s : State) : Host.Outcome State Fault Refusal :=
  .next (s.respondTrim (peel21 (tester .naive) .w32 n.toNat))

/-- `RTZ32.GM21 n` (R175): rotate-magic (ROT), two digits at a time, then at most one, W = 32. -/
def execRtz32Gm21 (n : Half) (s : State) : Host.Outcome State Fault Refusal :=
  .next (s.respondTrim (peel21 (tester .gm) .w32 n.toNat))

/-- `RTZ32.LEMIRE21 n` (R176): wide-multiply compare (WM), two digits at a time, then at most one, W = 32. -/
def execRtz32Lemire21 (n : Half) (s : State) : Host.Outcome State Fault Refusal :=
  .next (s.respondTrim (peel21 (tester .lemire) .w32 n.toNat))

/-- `RTZ32.GGM21 n` (R177): shift-magic (SH), two digits at a time, then at most one, W = 32. -/
def execRtz32Ggm21 (n : Half) (s : State) : Host.Outcome State Fault Refusal :=
  .next (s.respondTrim (peel21 (tester .ggm) .w32 n.toNat))

/-- `RTZ32.BASE n` (R178): baseline, the identity on `req.a[31:0]`, W = 32. -/
def execRtz32Base (n : Half) (s : State) : Host.Outcome State Fault Refusal :=
  .next (s.respondTrim (baseline n.toNat))

end Sys2Proof.Machine
end

