-- ==== Sys2Proof/Machine/Rtz64.lean ====
section
/-! DEFINITION. The meanings of the thirteen 64-bit removers (R200 to R212). Common to all: no flag, no exception, for every
operand (R120, R240); the result goes where R123 says. -/

namespace Sys2Proof.Machine

/-- `RTZ64.NAIVE n` (R200): naive (MOD), one digit at a time, W = 64. -/
def execRtz64Naive (n : Word) (s : State) : Host.Outcome State Fault Refusal :=
  .next (s.respondTrim (peel1 (tester .naive) .w64 n.toNat))

/-- `RTZ64.GM n` (R201): rotate-magic (ROT), one digit at a time, W = 64. -/
def execRtz64Gm (n : Word) (s : State) : Host.Outcome State Fault Refusal :=
  .next (s.respondTrim (peel1 (tester .gm) .w64 n.toNat))

/-- `RTZ64.LEMIRE n` (R202): wide-multiply compare (WM), one digit at a time, W = 64. -/
def execRtz64Lemire (n : Word) (s : State) : Host.Outcome State Fault Refusal :=
  .next (s.respondTrim (peel1 (tester .lemire) .w64 n.toNat))

/-- `RTZ64.GGM n` (R203): shift-magic (SH), one digit at a time, W = 64. -/
def execRtz64Ggm (n : Word) (s : State) : Host.Outcome State Fault Refusal :=
  .next (s.respondTrim (peel1 (tester .ggm) .w64 n.toNat))

/-- `RTZ64.NAIVE21 n` (R204): naive (MOD), two digits at a time, then at most one, W = 64. -/
def execRtz64Naive21 (n : Word) (s : State) : Host.Outcome State Fault Refusal :=
  .next (s.respondTrim (peel21 (tester .naive) .w64 n.toNat))

/-- `RTZ64.GM21 n` (R205): rotate-magic (ROT), two digits at a time, then at most one, W = 64. -/
def execRtz64Gm21 (n : Word) (s : State) : Host.Outcome State Fault Refusal :=
  .next (s.respondTrim (peel21 (tester .gm) .w64 n.toNat))

/-- `RTZ64.LEMIRE21 n` (R206): wide-multiply compare (WM), two digits at a time, then at most one, W = 64. -/
def execRtz64Lemire21 (n : Word) (s : State) : Host.Outcome State Fault Refusal :=
  .next (s.respondTrim (peel21 (tester .lemire) .w64 n.toNat))

/-- `RTZ64.GGM21 n` (R207): shift-magic (SH), two digits at a time, then at most one, W = 64. -/
def execRtz64Ggm21 (n : Word) (s : State) : Host.Outcome State Fault Refusal :=
  .next (s.respondTrim (peel21 (tester .ggm) .w64 n.toNat))

/-- `RTZ64.NAIVE821 n` (R208): naive (MOD), eight digits first, then 2-1, W = 64. -/
def execRtz64Naive821 (n : Word) (s : State) : Host.Outcome State Fault Refusal :=
  .next (s.respondTrim (peel821 (tester .naive) n.toNat))

/-- `RTZ64.GM821 n` (R209): rotate-magic (ROT), eight digits first, then 2-1, W = 64. -/
def execRtz64Gm821 (n : Word) (s : State) : Host.Outcome State Fault Refusal :=
  .next (s.respondTrim (peel821 (tester .gm) n.toNat))

/-- `RTZ64.LEMIRE821 n` (R210): wide-multiply compare (WM), eight digits first, then 2-1, W = 64. -/
def execRtz64Lemire821 (n : Word) (s : State) : Host.Outcome State Fault Refusal :=
  .next (s.respondTrim (peel821 (tester .lemire) n.toNat))

/-- `RTZ64.GGM821 n` (R211): shift-magic (SH), eight digits first, then 2-1, W = 64. -/
def execRtz64Ggm821 (n : Word) (s : State) : Host.Outcome State Fault Refusal :=
  .next (s.respondTrim (peel821 (tester .ggm) n.toNat))

/-- `RTZ64.BASE n` (R212): baseline, the identity on `req.a`, W = 64. -/
def execRtz64Base (n : Word) (s : State) : Host.Outcome State Fault Refusal :=
  .next (s.respondTrim (baseline n.toNat))

end Sys2Proof.Machine
end

