-- ==== Sys2Proof/Machine/Dispatch.lean ====
section
/-! DEFINITION. Which meaning each operation has: one arm per constructor. -/

namespace Sys2Proof.Machine

def exec (i : Instr) (s : State) : Host.Outcome State Fault Refusal :=
  match i with
  | .rtz32Naive n => Sys2Proof.Machine.execRtz32Naive n s
  | .rtz32Gm n => Sys2Proof.Machine.execRtz32Gm n s
  | .rtz32Lemire n => Sys2Proof.Machine.execRtz32Lemire n s
  | .rtz32Ggm n => Sys2Proof.Machine.execRtz32Ggm n s
  | .rtz32Naive21 n => Sys2Proof.Machine.execRtz32Naive21 n s
  | .rtz32Gm21 n => Sys2Proof.Machine.execRtz32Gm21 n s
  | .rtz32Lemire21 n => Sys2Proof.Machine.execRtz32Lemire21 n s
  | .rtz32Ggm21 n => Sys2Proof.Machine.execRtz32Ggm21 n s
  | .rtz32Base n => Sys2Proof.Machine.execRtz32Base n s
  | .rtz64Naive n => Sys2Proof.Machine.execRtz64Naive n s
  | .rtz64Gm n => Sys2Proof.Machine.execRtz64Gm n s
  | .rtz64Lemire n => Sys2Proof.Machine.execRtz64Lemire n s
  | .rtz64Ggm n => Sys2Proof.Machine.execRtz64Ggm n s
  | .rtz64Naive21 n => Sys2Proof.Machine.execRtz64Naive21 n s
  | .rtz64Gm21 n => Sys2Proof.Machine.execRtz64Gm21 n s
  | .rtz64Lemire21 n => Sys2Proof.Machine.execRtz64Lemire21 n s
  | .rtz64Ggm21 n => Sys2Proof.Machine.execRtz64Ggm21 n s
  | .rtz64Naive821 n => Sys2Proof.Machine.execRtz64Naive821 n s
  | .rtz64Gm821 n => Sys2Proof.Machine.execRtz64Gm821 n s
  | .rtz64Lemire821 n => Sys2Proof.Machine.execRtz64Lemire821 n s
  | .rtz64Ggm821 n => Sys2Proof.Machine.execRtz64Ggm821 n s
  | .rtz64Base n => Sys2Proof.Machine.execRtz64Base n s
  | .wmul x y => Sys2Proof.Machine.execWmul x y s

end Sys2Proof.Machine
end

