-- ==== Sys2Proof/Machine/Step.lean ====
section
/-! DEFINITION. One step of the machine, and how the host side puts an instruction where the next step takes it. -/

namespace Sys2Proof.Machine

/-- One step (R44, R276): the unit takes the oldest request the host offers, decodes it (R65), and either performs the
operation or raises `IllegalOperation` (R241): one request, one response. A reset falls between steps (R271); with
nothing offered nothing happens (log 2). -/
def step (s : State) : Host.Outcome State Fault Refusal :=
  match s.takeEvent with
  | .idle => .next s
  | .reset s' => .next s'.resetUnit
  | .request s' =>
    match decode s'.req with
    | .instr i => exec i s'
    | .reserved _ => .next s'.raiseIllegalOperation

/-- `s` with the host offering, before anything else, the request whose bits are `w` as the opcode table numbers them
(log 10, log 11): the very next step takes exactly it. -/
def State.withFetchWord (s : State) (nbits w : Nat) : State :=
  { s with inbox := .request (requestOfTableWord nbits w) :: s.inbox }

end Sys2Proof.Machine
end

