-- ==== Sys2Proof/Machine/Assembler.lean ====
section
/-! DEFINITION. The assembler's text (R70, R71): mnemonics, literals, lines, programs. It is how a host writes requests
down; the unit never sees it. The spacing, the letter case of hexadecimal digits and a comment after a line are read as
spec/95 writes them (log 16). -/

namespace Sys2Proof

/-! ## Mnemonics -/

/-- R71: the stem of a technique. -/
def Technique.stem : Technique → String
  | .naive => "NAIVE"
  | .gm => "GM"
  | .lemire => "LEMIRE"
  | .ggm => "GGM"

/-- R71: "the suffix is empty for granularity 1, `21` for 2-1, `821` for 8-2-1". -/
def Granularity.suffix : Granularity → String
  | .one => ""
  | .twoOne => "21"
  | .eightTwoOne => "821"

/-- R71: the part `<V>` of a remover's mnemonic. -/
def Variant.name : Variant → String
  | .peel t g => t.stem ++ g.suffix
  | .base => "BASE"

/-- Every variant. -/
def variants : List Variant :=
  [.peel .naive .one, .peel .gm .one, .peel .lemire .one, .peel .ggm .one,
   .peel .naive .twoOne, .peel .gm .twoOne, .peel .lemire .twoOne, .peel .ggm .twoOne,
   .peel .naive .eightTwoOne, .peel .gm .eightTwoOne, .peel .lemire .eightTwoOne, .peel .ggm .eightTwoOne,
   .base]

/-- The variant of a name; none for any other text ("there are no pseudo-instructions", R71). -/
def variantNamed (cs : List Char) : Option Variant := variants.find? (fun v => v.name.toList == cs)

/-! ## Literals -/

/-- The value of a decimal or hexadecimal digit. -/
def digitValue (c : Char) : Option Nat :=
  if 48 ≤ c.toNat ∧ c.toNat ≤ 57 then some (c.toNat - 48)
  else if 65 ≤ c.toNat ∧ c.toNat ≤ 70 then some (c.toNat - 55)
  else if 97 ≤ c.toNat ∧ c.toNat ≤ 102 then some (c.toNat - 87)
  else none

/-- The number that `cs` writes after `acc` in a base. R12: `_` inside a hexadecimal literal "is a visual separator only". -/
def numberFrom (base acc : Nat) : List Char → Option Nat
  | [] => some acc
  | c :: cs =>
    if base = 16 ∧ c = '_' then numberFrom base acc cs
    else match digitValue c with
      | none => none
      | some d => if d < base then numberFrom base (acc * base + d) cs else none

/-- R70, R12: an unsigned literal, decimal or with the prefix `0x` hexadecimal; at least one digit. -/
def literal : List Char → Option Nat
  | [] => none
  | '0' :: 'x' :: cs => if cs.any (fun c => c != '_') then numberFrom 16 0 cs else none
  | c :: cs => numberFrom 10 0 (c :: cs)

/-! ## Lines -/

/-- `word`, if it is not empty, before `rest`. -/
def flush (word : List Char) (rest : List (List Char)) : List (List Char) :=
  if word.isEmpty then rest else word :: rest

/-- The tokens of a line: words between spaces, and commas. `word` is what has been read of the next one. -/
def tokens (word : List Char) : List Char → List (List Char)
  | [] => flush word []
  | c :: cs =>
    if c = ' ' then flush word (tokens [] cs)
    else if c = ',' then flush word ([','] :: tokens [] cs)
    else tokens (word ++ [c]) cs

/-- What a line of text is. -/
inductive AsmText where
  /-- Nothing but a comment (R70: "A line starting `;` is a comment"), or nothing at all. -/
  | comment
  | line (l : AsmLine)
  /-- None of R70's forms. -/
  | notALine
deriving DecidableEq, Repr

/-- R70: the three forms of a line. -/
def lineOfTokens : List (List Char) → AsmText
  | [] => .comment
  | [m, n] =>
    match variantNamed (m.drop 6), literal n with
    | some v, some k =>
      if m.take 6 = "RTZ32.".toList then .line (.rtz32 v k)
      else if m.take 6 = "RTZ64.".toList then .line (.rtz64 v k)
      else .notALine
    | _, _ => .notALine
  | [m, x, comma, y] =>
    match literal x, literal y with
    | some j, some k => if m = "WMUL".toList ∧ comma = [','] then .line (.wmul j k) else .notALine
    | _, _ => .notALine
  | _ => .notALine

/-- A line of text, without its comment. -/
def parseLine (text : String) : AsmText := lineOfTokens (tokens [] (text.toList.takeWhile (fun c => c != ';')))

/-- R70: "A 'program' is a finite list of such lines issued in order by the host": its requests, in order; none where
some line is no line or its operands do not fit. -/
def assembleProgram : List String → Option (List Request)
  | [] => some []
  | t :: ts =>
    match parseLine t with
    | .comment => assembleProgram ts
    | .notALine => none
    | .line l =>
      match assemble l, assembleProgram ts with
      | some i, some rs => some (encode i :: rs)
      | _, _ => none

end Sys2Proof
end

