-- ==== Sys2Proof/Safety.lean ====
section
/-! DEFINITION. The terms claims are stated in: what a reserved code is, what a test owes, what the right response to a
request is, and the machine's invariant. -/

namespace Sys2Proof.Machine

/-- R67: the 41 reserved operation codes, by the ranges of its table. -/
def reservedOp (op : Opcode) : Bool :=
  (decide (0x08 ≤ op.toNat) && decide (op.toNat ≤ 0x0B)) ||
  (decide (0x0D ≤ op.toNat) && decide (op.toNat ≤ 0x0F)) ||
  (decide (0x1D ≤ op.toNat) && decide (op.toNat ≤ 0x1F)) ||
  decide (0x21 ≤ op.toNat)

/-- R130: the test contract, for every row and every `n` of the row's width: the test decides divisibility exactly, and
then gives the exact quotient. (When the test says no, its quotient is used by no rule.) -/
def MeetsContract (T : Tester) : Prop :=
  ∀ (site : Site) (n : Nat), n < 2 ^ site.width.bits →
    ((T site n).div = true ↔ n % site.divisor = 0) ∧
    ((T site n).div = true → (T site n).q = n / site.divisor)

/-- The response fields that a `TrimResult` is placed in: `(r0, r1)` (R123). -/
def trimWords (t : TrimResult) : Word × Word := (BitVec.ofNat 64 t.trimmed, BitVec.ofNat 64 t.removedCount)

/-- What the laws say an operation's results `(r0, r1)` are, with no algorithm: the halves of the exact product (R100);
`rtz(n)` for the twenty non-baseline removers (R150); `(n, 0)` for the baselines (R178, R212). -/
def lawfulResult : Instr → Word × Word
  | .rtz32Naive n | .rtz32Gm n | .rtz32Lemire n | .rtz32Ggm n
  | .rtz32Naive21 n | .rtz32Gm21 n | .rtz32Lemire21 n | .rtz32Ggm21 n => trimWords (rtz n.toNat)
  | .rtz32Base n => (n.setWidth 64, 0#64)
  | .rtz64Naive n | .rtz64Gm n | .rtz64Lemire n | .rtz64Ggm n
  | .rtz64Naive21 n | .rtz64Gm21 n | .rtz64Lemire21 n | .rtz64Ggm21 n
  | .rtz64Naive821 n | .rtz64Gm821 n | .rtz64Lemire821 n | .rtz64Ggm821 n => trimWords (rtz n.toNat)
  | .rtz64Base n => (n, 0#64)
  | .wmul x y => (BitVec.ofNat 64 (x.toNat * y.toNat), BitVec.ofNat 64 (x.toNat * y.toNat / 2 ^ 64))

/-- `p` is a right response to `r`: the lawful results and no fault where `r.op` selects an operation (R240); the fault,
and nothing said of `r0` and `r1`, where it selects none (R241). It depends on the request alone (R20, R44). -/
def RespondsTo (r : Request) (p : Response) : Prop :=
  match decode r with
  | .instr i => p = { fault := 0#1, r1 := (lawfulResult i).2, r0 := (lawfulResult i).1 }
  | .reserved _ => p.fault = 1#1

/-- The machine's invariant: a response that a step produced is a right response to the request fields beside it ("a
response belongs to the request it answers", R273). A response no step produced is not spoken of (R31, V2). -/
def State.Inv (s : State) : Prop := s.answered = true → RespondsTo s.req s.rsp

end Sys2Proof.Machine
end

