-- ==== Sys2Proof/Certificates/Slice0/Obligations.lean ====
section
/-! DEFINITION. The statements for the provers. Where an operation's next state is stated, it is stated whole: every field
that the record update does not name is unchanged. -/

open Sys2Proof Sys2Proof.Machine

/-! ## The wide multiply -/

/-- R100: `WMUL` completes for every `x`, `y`; its two results are the halves of the exact product; `high` is at most
`2^64 - 2`; code 0x20 selects it; the two operands commute. -/
def Obligations.WmulWritesTheExactProduct : Prop :=
  ∀ (x y : Word) (s : State),
    decode { op := 0x20#6, a := x, b := y } = .instr (.wmul x y) ∧
    exec (.wmul x y) s = exec (.wmul y x) s ∧
    ∃ high low : Word,
      exec (.wmul x y) s =
        .next { s with rsp := { fault := 0#1, r1 := high, r0 := low }, answered := true } ∧
      high.toNat * 2 ^ 64 + low.toNat = x.toNat * y.toNat ∧
      high.toNat ≤ 2 ^ 64 - 2

/-- R102: the portable decomposition of R101 is the exact multiply of R100. -/
def Obligations.PortableDecompositionIsExact : Prop :=
  ∀ x y : Word, wmulPortable x y = wmul x y

/-- R101: the stated maxima of the decomposition's values. -/
def Obligations.PortableValuesKeepTheirMaxima : Prop :=
  ∀ x y : Word,
    let p := partials x.toNat y.toNat
    (p.ac ≤ 0xFFFFFFFE00000001 ∧ p.bc ≤ 0xFFFFFFFE00000001 ∧ p.ad ≤ 0xFFFFFFFE00000001 ∧
      p.bd ≤ 0xFFFFFFFE00000001) ∧
    intermediate p ≤ 0x2FFFFFFFD ∧ shr (intermediate p) 32 ≤ 2 ∧
    portableHigh p < 2 ^ 64 ∧ portableLow p < 2 ^ 64

/-! ## The divisibility tests -/

/-- R130, R134, R141: each of the four tests meets the test contract. -/
def Obligations.EveryTestMeetsTheContract : Prop :=
  ∀ t : Technique, MeetsContract (tester t)

/-- R137: WM meets the contract, and its quotient is `floor(n / d)` for every `n`. -/
def Obligations.WideCompareQuotientIsFloor : Prop :=
  MeetsContract testWide ∧
  ∀ (site : Site) (n : Nat), n < 2 ^ site.width.bits → (testWide site n).q = n / site.divisor

/-- R132: the table of the ROT constants and the derivation of each entry. -/
def Obligations.RotateConstantsFollowTheirDerivation : Prop :=
  (∀ site : Site,
    site.divisor = 2 ^ twoPower site * oddPart site ∧ oddPart site % 2 = 1 ∧
    rotMultiplier site < 2 ^ site.width.bits ∧
    oddPart site * rotMultiplier site % 2 ^ site.width.bits = 1 ∧
    rotThreshold site = 2 ^ site.width.bits / site.divisor ∧
    rotThreshold site = (2 ^ site.width.bits - 1) / site.divisor) ∧
  [Site.w32d10, Site.w32d100, Site.w64d10, Site.w64d100, Site.w64d1e8].map
      (fun c => (twoPower c, oddPart c, rotMultiplier c, rotThreshold c)) =
    [(1, 5, 3435973837, 429496729), (2, 25, 3264175145, 42949672),
     (1, 5, 14757395258967641293, 1844674407370955161),
     (2, 25, 10330176681277348905, 184467440737095516),
     (8, 390625, 14368461155438497313, 184467440737)] ∧
  rotMultiplier .w32d100 = rotMultiplier .w32d10 ^ 2 % 2 ^ 32

/-- R135: the table of the WM constants, `c = ceil(2^F / d)`; the condition `(Q + 1)·e < c` holds, it fails for every
smaller `k`, and every smaller `k` makes the test wrong somewhere in the domain; the two inputs that R135 gives. -/
def Obligations.WideCompareConstantsAreTheSmallest : Prop :=
  (∀ site : Site,
    let d := site.divisor
    let ceilAt := fun k : Nat => (2 ^ (site.width.bits + k) + d - 1) / d
    let exact := fun k : Nat =>
      ((2 ^ site.width.bits - 1) / d + 1) * (ceilAt k * d - 2 ^ (site.width.bits + k)) < ceilAt k
    let acceptsAt := fun k n : Nat => n * ceilAt k % 2 ^ (site.width.bits + k) < ceilAt k
    wideMultiplier site = ceilAt (wideK site) ∧ exact (wideK site) ∧
    ∀ k < wideK site, ¬ exact k ∧ ∃ n < 2 ^ site.width.bits, ¬ (acceptsAt k n ↔ n % d = 0)) ∧
  [Site.w32d10, Site.w32d100, Site.w64d10, Site.w64d100, Site.w64d1e8].map
      (fun c => (wideK c, wideF c, wideMultiplier c, Nat.log2 (wideMultiplier c) + 1,
        wideMultiplier c * c.divisor - 2 ^ wideF c)) =
    [(3, 35, 3435973837, 32, 2), (5, 37, 1374389535, 31, 28), (3, 67, 14757395258967641293, 64, 2),
     (7, 71, 23611832414348226069, 65, 52), (26, 90, 12379400392853802749, 64, 875776)] ∧
  (1073741829 * 429496730 % 2 ^ 32 < 429496730 ∧ 1073741829 % 10 ≠ 0) ∧
  (15534100272597517199 * ((2 ^ 70 + 99) / 100) % 2 ^ 70 < (2 ^ 70 + 99) / 100 ∧
    15534100272597517199 % 100 = 99)

/-- R139: the table of the SH constants and the derivation of each entry. -/
def Obligations.ShiftConstantsFollowTheirDerivation : Prop :=
  (∀ site : Site,
    shiftB site = site.width.bits + twoPower site ∧
    shiftMultiplier site < 2 ^ shiftB site ∧
    oddPart site * shiftMultiplier site % 2 ^ shiftB site = (1 + 2 ^ site.width.bits) % 2 ^ shiftB site ∧
    shiftThreshold site = 2 ^ twoPower site * ((2 ^ site.width.bits - 1) / site.divisor) + 1 ∧
    (2 ^ site.width.bits - 1) / site.divisor = rotThreshold site ∧
    shiftMultiplier site % 2 ^ site.width.bits = rotMultiplier site) ∧
  [Site.w32d10, Site.w32d100, Site.w64d10, Site.w64d100, Site.w64d1e8].map
      (fun c => (shiftB c, shiftMultiplier c, shiftThreshold c, shiftMultiplier c / 2 ^ c.width.bits)) =
    [(33, 7730941133, 858993459, 1), (34, 11854109737, 171798689, 2),
     (65, 33204139332677192909, 3689348814741910323, 1),
     (66, 65670408902406003753, 737869762948382065, 3),
     (72, 2836720304432999894561, 47223664828673, 0x99)]

/-- R136: the definition of WM on the exact product, the product's bound, and the forms at W = 64 that take it from one
`wmul`. -/
def Obligations.WideCompareFromOneWmul : Prop :=
  (∀ (site : Site) (n : Nat), n < 2 ^ site.width.bits →
    testWide site n =
      { div := decide (n * wideMultiplier site % 2 ^ wideF site < wideMultiplier site)
        q := n * wideMultiplier site / 2 ^ wideF site } ∧
    n * wideMultiplier site < 2 ^ site.width.bits * wideMultiplier site ∧
    2 ^ site.width.bits * wideMultiplier site < 2 ^ (2 * site.width.bits + 1) ∧
    (site.width = .w32 → n * wideMultiplier site < 2 ^ 64)) ∧
  (∀ n : Nat, n < 2 ^ 64 →
    testWideWmul .w64d10 n = testWide .w64d10 n ∧
    testWideWmul .w64d1e8 n = testWide .w64d1e8 n ∧
    testWideWmul100 n = testWide .w64d100 n ∧
    n * wideMultiplier .w64d100 = (n + (wmulNat n wideLow100).1) * 2 ^ 64 + (wmulNat n wideLow100).2 ∧
    n + (wmulNat n wideLow100).1 < 2 ^ 65)

/-- R206: at `(64, 100)` the second disjunct of the one-`wmul` form is never true, so the test is `S mod 128 == 0`. -/
def Obligations.WideCompareBy100NeedsOneDisjunct : Prop :=
  ∀ n : Nat, n < 2 ^ 64 →
    ((testWide .w64d100 n).div = true ↔ (n + (wmulNat n wideLow100).1) % 128 = 0)

/-- R140: the definition of SH, and its product at W = 64 from one `wmul`. -/
def Obligations.ShiftProductFromOneWmul : Prop :=
  (∀ (site : Site) (n : Nat),
    testShift site n =
      { div := decide (n * shiftMultiplier site % 2 ^ shiftB site < shiftThreshold site)
        q := n * shiftMultiplier site % 2 ^ shiftB site / 2 ^ twoPower site }) ∧
  (∀ (site : Site) (n : Nat), site.width = .w64 → n < 2 ^ 64 →
    n * shiftMultiplier site % 2 ^ shiftB site = shiftProductWmul site n)

/-! ## The peel schedules -/

/-- R149: every schedule computes `rtz` when its test meets the contract. -/
def Obligations.SchedulesComputeRtz : Prop :=
  ∀ T : Tester, MeetsContract T →
    (∀ (w : Width) (n : Nat), n < 2 ^ w.bits → peel1 T w n = rtz n ∧ peel21 T w n = rtz n) ∧
    (∀ n : Nat, n < 2 ^ 64 → peel821 T n = rtz n)

/-- R121: for `n > 0` the `TrimResult` invariant determines `rtz(n)`, whose trimmed value is positive and whose count is
the greatest `k` with `10^k` dividing `n`. -/
def Obligations.RtzIsTheOnlyTrimResult : Prop :=
  ∀ n : Nat, 0 < n →
    (∀ t c : Nat, rtz n = { trimmed := t, removedCount := c } ↔ t * 10 ^ c = n ∧ t % 10 ≠ 0) ∧
    0 < (rtz n).trimmed ∧
    (∀ k : Nat, 10 ^ k ∣ n ↔ k ≤ (rtz n).removedCount)

/-- R148: with each of the four tests the loops end by the failing test within the bounds: more fuel changes nothing,
the test rejects where the loop stopped, the accepted steps are at most 9 or 19 (peel1) and 4 or 9 (peel21), a loop
performs one more test than it accepts, and `peel821` performs one test and then one `peel21`. -/
def Obligations.PeelLoopsEndByTheFailingTest : Prop :=
  ∀ (t : Technique) (w : Width) (n : Nat), 0 < n → n < 2 ^ w.bits →
    (∀ extra : Nat,
      peelLoop (tester t) w.by10 1 (w.fuel1 + extra) n 0 = peelLoop (tester t) w.by10 1 w.fuel1 n 0 ∧
      peelLoop (tester t) w.by100 2 (w.fuel21 + extra) n 0 = peelLoop (tester t) w.by100 2 w.fuel21 n 0) ∧
    (tester t w.by10 (peelLoop (tester t) w.by10 1 w.fuel1 n 0).1).div = false ∧
    (tester t w.by100 (peelLoop (tester t) w.by100 2 w.fuel21 n 0).1).div = false ∧
    (peelLoop (tester t) w.by10 1 w.fuel1 n 0).2 ≤ (match w with | .w32 => 9 | .w64 => 19) ∧
    (peelLoop (tester t) w.by100 2 w.fuel21 n 0).2 ≤ 2 * (match w with | .w32 => 4 | .w64 => 9) ∧
    loopTests (tester t) w.by10 w.fuel1 n = (peelLoop (tester t) w.by10 1 w.fuel1 n 0).2 + 1 ∧
    2 * loopTests (tester t) w.by100 w.fuel21 n = (peelLoop (tester t) w.by100 2 w.fuel21 n 0).2 + 2 ∧
    (w = .w64 →
      peel821Tests (tester t) n =
        1 + (if fastPath (tester t) n then peel21Tests (tester t) .w32 (tester t .w64d1e8 n).q
             else peel21Tests (tester t) .w64 n))

/-- R279: how many tests a step performs, for an `n` with `z` trailing zeros; none for `n = 0`. -/
def Obligations.TestsPerStepFollowTheZeros : Prop :=
  ∀ t : Technique,
    (∀ (w : Width) (n : Nat), 0 < n → n < 2 ^ w.bits →
      peel1Tests (tester t) w n = (rtz n).removedCount + 1 ∧
      peel21Tests (tester t) w n = (rtz n).removedCount / 2 + 2) ∧
    (∀ n : Nat, 0 < n → n < 2 ^ 64 →
      peel821Tests (tester t) n =
        if n % 10 ^ 8 = 0 ∧ n / 10 ^ 8 < 2 ^ 32 then ((rtz n).removedCount - 8) / 2 + 3
        else (rtz n).removedCount / 2 + 3) ∧
    (∀ w : Width, peel1Tests (tester t) w 0 = 0 ∧ peel21Tests (tester t) w 0 = 0 ∧ peel821Tests (tester t) 0 = 0)

/-- R147 (with conflict C3): whatever the technique, the fast path is taken exactly where `10^8` divides `n` and the
quotient fits in 32 bits, so never from `2^32·10^8` up. -/
def Obligations.FastPathIsTakenExactlyWhereItFits : Prop :=
  ∀ (t : Technique) (n : Nat), n < 2 ^ 64 →
    (fastPath (tester t) n = true ↔ n % 10 ^ 8 = 0 ∧ n / 10 ^ 8 ≤ 2 ^ 32 - 1)

/-- R209, R211: for ROT and SH the condition of the fast path is one comparison. -/
def Obligations.FastPathIsOneComparison : Prop :=
  ∀ n : Nat,
    fastPath testRot n = decide ((testRot .w64d1e8 n).q ≤ 0xFFFFFFFF) ∧
    fastPath testShift n = decide (shiftProduct .w64d1e8 n < 2 ^ 40)

/-! ## The removers -/

/-- R150: every one of the twenty non-baseline removers completes for every operand, and its response is `rtz(n)`; so all
of one width give the identical pair. -/
def Obligations.AllNonBaselineRemoversComputeRtz : Prop :=
  (∀ op ∈ [Instr.rtz32Naive, Instr.rtz32Gm, Instr.rtz32Lemire, Instr.rtz32Ggm,
      Instr.rtz32Naive21, Instr.rtz32Gm21, Instr.rtz32Lemire21, Instr.rtz32Ggm21],
    ∀ (n : Half) (s : State),
      exec (op n) s =
        .next { s with
          rsp := { fault := 0#1, r1 := BitVec.ofNat 64 (rtz n.toNat).removedCount,
                   r0 := BitVec.ofNat 64 (rtz n.toNat).trimmed }
          answered := true }) ∧
  (∀ op ∈ [Instr.rtz64Naive, Instr.rtz64Gm, Instr.rtz64Lemire, Instr.rtz64Ggm,
      Instr.rtz64Naive21, Instr.rtz64Gm21, Instr.rtz64Lemire21, Instr.rtz64Ggm21,
      Instr.rtz64Naive821, Instr.rtz64Gm821, Instr.rtz64Lemire821, Instr.rtz64Ggm821],
    ∀ (n : Word) (s : State),
      exec (op n) s =
        .next { s with
          rsp := { fault := 0#1, r1 := BitVec.ofNat 64 (rtz n.toNat).removedCount,
                   r0 := BitVec.ofNat 64 (rtz n.toNat).trimmed }
          answered := true })

/-- R178, R212: the baselines complete for every operand, return it unchanged with count 0, and are selected by 0x0C and
0x1C; `req.a[63:32]` is ignored by the 32-bit one. -/
def Obligations.BaselineIsTheIdentity : Prop :=
  (∀ (n : Half) (s : State),
    exec (.rtz32Base n) s =
      .next { s with rsp := { fault := 0#1, r1 := 0#64, r0 := n.setWidth 64 }, answered := true }) ∧
  (∀ (n : Word) (s : State),
    exec (.rtz64Base n) s = .next { s with rsp := { fault := 0#1, r1 := 0#64, r0 := n }, answered := true }) ∧
  (∀ a b : Word,
    decode { op := 0x0C#6, a := a, b := b } = .instr (.rtz32Base (a.extractLsb' 0 32)) ∧
    decode { op := 0x1C#6, a := a, b := b } = .instr (.rtz64Base a))

/-- R122: every remover answers `(0, 0)` for `n = 0`; every divisibility test by itself reports 0 as divisible with quotient
0; and the schedules answer `(0, 0)` before any test, whatever the test would say. -/
def Obligations.ZeroInputGivesZeroPair : Prop :=
  (∀ op ∈ [Instr.rtz32Naive, Instr.rtz32Gm, Instr.rtz32Lemire, Instr.rtz32Ggm,
      Instr.rtz32Naive21, Instr.rtz32Gm21, Instr.rtz32Lemire21, Instr.rtz32Ggm21, Instr.rtz32Base],
    ∀ s : State, exec (op 0#32) s =
      .next { s with rsp := { fault := 0#1, r1 := 0#64, r0 := 0#64 }, answered := true }) ∧
  (∀ op ∈ [Instr.rtz64Naive, Instr.rtz64Gm, Instr.rtz64Lemire, Instr.rtz64Ggm,
      Instr.rtz64Naive21, Instr.rtz64Gm21, Instr.rtz64Lemire21, Instr.rtz64Ggm21,
      Instr.rtz64Naive821, Instr.rtz64Gm821, Instr.rtz64Lemire821, Instr.rtz64Ggm821, Instr.rtz64Base],
    ∀ s : State, exec (op 0#64) s =
      .next { s with rsp := { fault := 0#1, r1 := 0#64, r0 := 0#64 }, answered := true }) ∧
  (∀ (t : Technique) (site : Site), tester t site 0 = { div := true, q := 0 }) ∧
  (∀ (T : Tester) (w : Width),
    peel1 T w 0 = { trimmed := 0, removedCount := 0 } ∧ peel21 T w 0 = { trimmed := 0, removedCount := 0 } ∧
    peel821 T 0 = { trimmed := 0, removedCount := 0 })

/-- R151: the round trip, `trimmed · 10^removedCount = n` as exact integers, for every remover, the baselines too. -/
def Obligations.RoundTripLaw : Prop :=
  (∀ op ∈ [Instr.rtz32Naive, Instr.rtz32Gm, Instr.rtz32Lemire, Instr.rtz32Ggm,
      Instr.rtz32Naive21, Instr.rtz32Gm21, Instr.rtz32Lemire21, Instr.rtz32Ggm21, Instr.rtz32Base],
    ∀ (n : Half) (s : State), ∃ trimmed count : Word,
      exec (op n) s =
        .next { s with rsp := { fault := 0#1, r1 := count, r0 := trimmed }, answered := true } ∧
      trimmed.toNat * 10 ^ count.toNat = n.toNat) ∧
  (∀ op ∈ [Instr.rtz64Naive, Instr.rtz64Gm, Instr.rtz64Lemire, Instr.rtz64Ggm,
      Instr.rtz64Naive21, Instr.rtz64Gm21, Instr.rtz64Lemire21, Instr.rtz64Ggm21,
      Instr.rtz64Naive821, Instr.rtz64Gm821, Instr.rtz64Lemire821, Instr.rtz64Ggm821, Instr.rtz64Base],
    ∀ (n : Word) (s : State), ∃ trimmed count : Word,
      exec (op n) s =
        .next { s with rsp := { fault := 0#1, r1 := count, r0 := trimmed }, answered := true } ∧
      trimmed.toNat * 10 ^ count.toNat = n.toNat)

/-- R152: the trimmed value of a non-baseline remover is not divisible by 10 unless `n = 0`, where it is 0; the baseline
does not satisfy this: it answers `(n, 0)` also where 10 divides `n`. -/
def Obligations.MaximalityLaw : Prop :=
  (∀ op ∈ [Instr.rtz32Naive, Instr.rtz32Gm, Instr.rtz32Lemire, Instr.rtz32Ggm,
      Instr.rtz32Naive21, Instr.rtz32Gm21, Instr.rtz32Lemire21, Instr.rtz32Ggm21],
    ∀ (n : Half) (s : State), ∃ trimmed count : Word,
      exec (op n) s =
        .next { s with rsp := { fault := 0#1, r1 := count, r0 := trimmed }, answered := true } ∧
      (n ≠ 0#32 → trimmed.toNat % 10 ≠ 0) ∧ (n = 0#32 → trimmed = 0#64)) ∧
  (∀ op ∈ [Instr.rtz64Naive, Instr.rtz64Gm, Instr.rtz64Lemire, Instr.rtz64Ggm,
      Instr.rtz64Naive21, Instr.rtz64Gm21, Instr.rtz64Lemire21, Instr.rtz64Ggm21,
      Instr.rtz64Naive821, Instr.rtz64Gm821, Instr.rtz64Lemire821, Instr.rtz64Ggm821],
    ∀ (n : Word) (s : State), ∃ trimmed count : Word,
      exec (op n) s =
        .next { s with rsp := { fault := 0#1, r1 := count, r0 := trimmed }, answered := true } ∧
      (n ≠ 0#64 → trimmed.toNat % 10 ≠ 0) ∧ (n = 0#64 → trimmed = 0#64)) ∧
  (∀ s : State,
    exec (.rtz32Base 10#32) s =
      .next { s with rsp := { fault := 0#1, r1 := 0#64, r0 := 10#64 }, answered := true } ∧
    exec (.rtz64Base 10#64) s =
      .next { s with rsp := { fault := 0#1, r1 := 0#64, r0 := 10#64 }, answered := true })

/-- R151, R152: every schedule, with each technique's test, satisfies the round-trip and the maximality law at each width;
the baseline satisfies the round-trip law and not the maximality law. At `n = 0` every schedule answers a trimmed value
that 10 divides, so maximality there cannot be required. -/
def Obligations.SchedulesSatisfyRoundTripAndMaximality : Prop :=
  (∀ (t : Technique) (w : Width),
    SatisfiesRoundTrip (peel1 (tester t) w) w ∧ SatisfiesMaximality (peel1 (tester t) w) w ∧
    SatisfiesRoundTrip (peel21 (tester t) w) w ∧ SatisfiesMaximality (peel21 (tester t) w) w) ∧
  (∀ t : Technique,
    SatisfiesRoundTrip (peel821 (tester t)) .w64 ∧ SatisfiesMaximality (peel821 (tester t)) .w64) ∧
  (∀ w : Width, SatisfiesRoundTrip baseline w ∧ ¬ SatisfiesMaximality baseline w) ∧
  (∀ (t : Technique) (w : Width),
    (peel1 (tester t) w 0).trimmed % 10 = 0 ∧ (peel21 (tester t) w 0).trimmed % 10 = 0 ∧
    (peel821 (tester t) 0).trimmed % 10 = 0)

/-- R124: the ranges of the results, and the inputs at which the greatest counts are reached. -/
def Obligations.CountsStayInRange : Prop :=
  (∀ op ∈ [Instr.rtz32Naive, Instr.rtz32Gm, Instr.rtz32Lemire, Instr.rtz32Ggm,
      Instr.rtz32Naive21, Instr.rtz32Gm21, Instr.rtz32Lemire21, Instr.rtz32Ggm21],
    ∀ (n : Half) (s : State), ∃ trimmed count : Word,
      exec (op n) s =
        .next { s with rsp := { fault := 0#1, r1 := count, r0 := trimmed }, answered := true } ∧
      count.toNat ≤ 9 ∧
      (count.toNat = 9 ↔ n ∈ [1000000000#32, 2000000000#32, 3000000000#32, 4000000000#32]) ∧
      (0 < n.toNat → 1 ≤ trimmed.toNat ∧ trimmed.toNat ≤ n.toNat)) ∧
  (∀ op ∈ [Instr.rtz64Naive, Instr.rtz64Gm, Instr.rtz64Lemire, Instr.rtz64Ggm,
      Instr.rtz64Naive21, Instr.rtz64Gm21, Instr.rtz64Lemire21, Instr.rtz64Ggm21,
      Instr.rtz64Naive821, Instr.rtz64Gm821, Instr.rtz64Lemire821, Instr.rtz64Ggm821],
    ∀ (n : Word) (s : State), ∃ trimmed count : Word,
      exec (op n) s =
        .next { s with rsp := { fault := 0#1, r1 := count, r0 := trimmed }, answered := true } ∧
      count.toNat ≤ 19 ∧ (count.toNat = 19 ↔ n = 10000000000000000000#64) ∧
      (0 < n.toNat → 1 ≤ trimmed.toNat ∧ trimmed.toNat ≤ n.toNat))

/-- R280 with R151: the host's round trip: a 64-bit remover, then `WMUL trimmed, 10^removedCount` in whatever state that
request is taken, gives `n` back in `r0` and 0 in `r1`. -/
def Obligations.HostRoundTripThroughWmul : Prop :=
  ∀ op ∈ [Instr.rtz64Naive, Instr.rtz64Gm, Instr.rtz64Lemire, Instr.rtz64Ggm,
      Instr.rtz64Naive21, Instr.rtz64Gm21, Instr.rtz64Lemire21, Instr.rtz64Ggm21,
      Instr.rtz64Naive821, Instr.rtz64Gm821, Instr.rtz64Lemire821, Instr.rtz64Ggm821, Instr.rtz64Base],
    ∀ (n : Word) (s s' : State), ∃ trimmed count : Word,
      exec (op n) s =
        .next { s with rsp := { fault := 0#1, r1 := count, r0 := trimmed }, answered := true } ∧
      exec (.wmul trimmed (BitVec.ofNat 64 (10 ^ count.toNat))) s' =
        .next { s' with rsp := { fault := 0#1, r1 := 0#64, r0 := n }, answered := true }

/-! ## Encoding -/

/-- Decode and encode agree on canonical words: for every operation with every operand. -/
def Obligations.DecodeInvertsEncodeOnWords : Prop :=
  ∀ i : Instr, decodeWord (encodeWord i) = .instr i

/-- The other direction: a request that decodes to `i` is `i`'s own request but for the ignored bits, which encode writes
as 0; so a request with those bits 0 is exactly `encode i`. -/
def Obligations.DecodedRequestsEncodeBack : Prop :=
  ∀ (r : Request) (i : Instr), decode r = .instr i →
    encode i =
      { op := r.op
        a := if r.op.toNat < 0x10 then (r.a.extractLsb' 0 32).setWidth 64 else r.a
        b := if r.op.toNat < 0x20 then 0#64 else r.b } ∧
    (r.ignoredBitsZero = true → encode i = r)

/-- R23: the fields of the two canonical words stand where R23 puts them, and a request word holds its request. -/
def Obligations.CanonicalWordsHoldTheirFields : Prop :=
  (∀ r : Request,
    r.word.extractLsb' 128 6 = r.op ∧ r.word.extractLsb' 64 64 = r.a ∧ r.word.extractLsb' 0 64 = r.b ∧
    Request.ofWord r.word = r) ∧
  (∀ w : BitVec 134, (Request.ofWord w).word = w) ∧
  (∀ p : Response,
    p.word.extractLsb' 128 1 = p.fault ∧ p.word.extractLsb' 64 64 = p.r1 ∧ p.word.extractLsb' 0 64 = p.r0)

/-- R67: decode rejects exactly the 41 codes of the table, each with its class, whatever the operands. -/
def Obligations.ReservedCodesAreExactlyTheTable : Prop :=
  (∀ r : Request,
    (decode r = .reserved .eightDigitWidth32 ↔ 0x08 ≤ r.op.toNat ∧ r.op.toNat ≤ 0x0B) ∧
    (decode r = .reserved .baselineTechnique32 ↔ 0x0D ≤ r.op.toNat ∧ r.op.toNat ≤ 0x0F) ∧
    (decode r = .reserved .baselineTechnique64 ↔ 0x1D ≤ r.op.toNat ∧ r.op.toNat ≤ 0x1F) ∧
    (decode r = .reserved .wideMultiplyOtherBits ↔ 0x21 ≤ r.op.toNat ∧ r.op.toNat ≤ 0x3F)) ∧
  ((List.range 64).filter (fun op => reservedOp (BitVec.ofNat 6 op))).length = 41 ∧
  (∀ r : Request, reservedOp r.op = true ↔ ∃ why, decode r = .reserved why)

/-- A few request words of the spec's own programs P1 to P4 decode to what the spec says they are. -/
def Obligations.SpecProgramWordsDecode : Prop :=
  decodeWord 0x2000000000000001DF000009184E72A000#134 = .instr (.wmul 479#64 10000000000000#64) ∧
  decodeWord 0x190011047AC87960000000000000000000#134 = .instr (.rtz64Gm821 4790000000000000#64) ∧
  decodeWord 0x05DEADBEEF0001D4C0FFFFFFFFFFFFFFFF#134 = .instr (.rtz32Gm21 120000#32) ∧
  decodeWord 0x168AC7230489E800000000000000000000#134 = .instr (.rtz64Lemire21 10000000000000000000#64) ∧
  decodeWord 0x21FFFFFFFFFFFFFFFFFFFFFFFFFFFFFFFF#134 = .reserved .wideMultiplyOtherBits

/-- R70: a well-formed line of the assembler stands for an operation whose request has the line's literals in its operand
fields and 0 in every ignored bit; a line that is not well formed stands for none. -/
def Obligations.AssemblerWritesTheRequest : Prop :=
  (∀ l : AsmLine, (assemble l).isSome = l.wellFormed) ∧
  (∀ (l : AsmLine) (i : Instr), assemble l = some i → (encode i).ignoredBitsZero = true) ∧
  (∀ (x y : Nat) (i : Instr), assemble (.wmul x y) = some i →
    (encode i).op = 0x20#6 ∧ (encode i).a.toNat = x ∧ (encode i).b.toNat = y) ∧
  (∀ (v : Variant) (n : Nat) (i : Instr), assemble (.rtz32 v n) = some i →
    (encode i).op.toNat < 0x10 ∧ (encode i).a.toNat = n ∧ (encode i).b = 0#64) ∧
  (∀ (v : Variant) (n : Nat) (i : Instr), assemble (.rtz64 v n) = some i →
    0x10 ≤ (encode i).op.toNat ∧ (encode i).op.toNat < 0x20 ∧ (encode i).a.toNat = n ∧ (encode i).b = 0#64)

/-- R66, R71: the 23 mnemonics select the 23 codes; a name of none of them, or `WMUL` with a single operand, is no line. -/
def Obligations.MnemonicsSelectTheirCodes : Prop :=
  ([("RTZ32.NAIVE 7", 0x00), ("RTZ32.GM 7", 0x01), ("RTZ32.LEMIRE 7", 0x02), ("RTZ32.GGM 7", 0x03),
     ("RTZ32.NAIVE21 7", 0x04), ("RTZ32.GM21 7", 0x05), ("RTZ32.LEMIRE21 7", 0x06), ("RTZ32.GGM21 7", 0x07),
     ("RTZ32.BASE 7", 0x0C), ("RTZ64.NAIVE 7", 0x10), ("RTZ64.GM 7", 0x11), ("RTZ64.LEMIRE 7", 0x12),
     ("RTZ64.GGM 7", 0x13), ("RTZ64.NAIVE21 7", 0x14), ("RTZ64.GM21 7", 0x15), ("RTZ64.LEMIRE21 7", 0x16),
     ("RTZ64.GGM21 7", 0x17), ("RTZ64.NAIVE821 7", 0x18), ("RTZ64.GM821 7", 0x19), ("RTZ64.LEMIRE821 7", 0x1A),
     ("RTZ64.GGM821 7", 0x1B), ("RTZ64.BASE 7", 0x1C)] :
      List (String × Nat)).all
    (fun p => assembleProgram [p.1] == some [{ op := BitVec.ofNat 6 p.2, a := 7#64, b := 0#64 }]) = true ∧
  assembleProgram ["WMUL 7, 8"] = some [{ op := 0x20#6, a := 7#64, b := 8#64 }] ∧
  assembleProgram ["RTZ32.GM821 7"] = none ∧ assembleProgram ["RTZ64.BASE21 7"] = none ∧
  assembleProgram ["WMUL 7"] = none

/-- R70, R65: the requests of a program that assembles are canonical and none of them faults: each holds a code that
selects an operation, 0 in every ignored bit, and is the request of the operation that decode reads from it. -/
def Obligations.AssembledProgramsHoldDefinedRequests : Prop :=
  ∀ (texts : List String) (rs : List Request), assembleProgram texts = some rs →
    rs.length ≤ texts.length ∧
    ∀ r ∈ rs, reservedOp r.op = false ∧ r.ignoredBitsZero = true ∧ ∃ i : Instr, decode r = .instr i ∧ encode i = r

/-! ## Steps -/

/-- A step runs the decoded instruction: where the request at the head of what the host offers decodes to `i`, the step
is exec of `i`, with that request taken into the request fields and off the list. -/
def Obligations.StepRunsTheDecodedInstruction : Prop :=
  ∀ (s : State) (r : Request) (rest : List HostEvent) (i : Instr),
    s.inbox = .request r :: rest → decode r = .instr i →
    step s = exec i { s with req := r, inbox := rest }

/-- R240: a request with a defined code never faults, whatever its operands; the step changes the request and response
fields and nothing else of the spec's. -/
def Obligations.DefinedOperationsNeverFault : Prop :=
  ∀ (s : State) (r : Request) (rest : List HostEvent),
    s.inbox = .request r :: rest → reservedOp r.op = false →
    ∃ r0 r1 : Word,
      step s =
        .next { s with req := r, inbox := rest, rsp := { fault := 0#1, r1 := r1, r0 := r0 }, answered := true }

/-- R241: a step answers with the fault bit 1 exactly where the code is one of the 41 reserved ones; it saves nothing and
goes on with the next thing the host offers. Nothing is said of `r0` and `r1` then. -/
def Obligations.ReservedCodesRaiseIllegalOperation : Prop :=
  ∀ (s : State) (r : Request) (rest : List HostEvent),
    s.inbox = .request r :: rest →
    ∃ p : Response, ∃ k : Nat,
      step s = .next { s with req := r, inbox := rest, rsp := p, answered := true, freeIndex := k } ∧
      (p.fault = 1#1 ↔ reservedOp r.op = true)

/-- The model's own counter (log 6): among the steps that take a request, one that raises `IllegalOperation` takes a fresh
free value and no other does. (A reset takes one too: log 7, `ResetLeavesNoResponse`.) -/
def Obligations.AmongRequestsOnlyTheExceptionTakesAFreeValue : Prop :=
  ∀ (s t : State) (r : Request) (rest : List HostEvent),
    s.inbox = .request r :: rest → step s = .next t →
    t.freeIndex = if reservedOp r.op then s.freeIndex + 1 else s.freeIndex

/-- R20: the response is a function of the request alone: two machines in any two states that take the same request answer
with the same response (with the same fault bit, where the code is reserved). -/
def Obligations.ResponseDependsOnTheRequestAlone : Prop :=
  ∀ (s₁ s₂ : State) (r : Request) (rest₁ rest₂ : List HostEvent),
    s₁.inbox = .request r :: rest₁ → s₂.inbox = .request r :: rest₂ →
    ∃ t₁ t₂ : State, step s₁ = .next t₁ ∧ step s₂ = .next t₂ ∧
      t₁.rsp.fault = t₂.rsp.fault ∧ (reservedOp r.op = false → t₁.rsp = t₂.rsp)

/-- R68: the ignored bits, `req.b` of a remover and `req.a[63:32]` of a 32-bit remover, hold any value: they cause no fault
and change no result. -/
def Obligations.IgnoredBitsChangeNoResult : Prop :=
  ∀ (s : State) (r r' : Request) (rest : List HostEvent),
    reservedOp r.op = false → r.op.toNat < 0x20 → r'.op = r.op →
    r'.a.extractLsb' 0 32 = r.a.extractLsb' 0 32 → (0x10 ≤ r.op.toNat → r'.a = r.a) →
    ∃ t t' : State,
      step { s with inbox := .request r :: rest } = .next t ∧
      step { s with inbox := .request r' :: rest } = .next t' ∧
      t'.rsp = t.rsp ∧ t'.rsp.fault = 0#1

/-- R22, R63: the forms of the responses of defined operations: a 32-bit remover leaves `r0[63:32]` 0 and answers a count
of at most 9, every remover a count of at most 19, and `WMUL` never answers `high = 2^64 - 1`. -/
def Obligations.ResponseFormsOfRemovers : Prop :=
  ∀ (s : State) (r : Request) (rest : List HostEvent),
    s.inbox = .request r :: rest → reservedOp r.op = false →
    ∃ t : State, step s = .next t ∧ t.rsp.fault = 0#1 ∧
      (r.op.toNat < 0x10 → t.rsp.r0.extractLsb' 32 32 = 0#32 ∧ t.rsp.r1.toNat ≤ 9) ∧
      (r.op.toNat < 0x20 → t.rsp.r1.toNat ≤ 19) ∧
      (r.op = 0x20#6 → t.rsp.r1.toNat ≤ 2 ^ 64 - 2)

/-- R44: after `k` steps on the requests `rs`, exactly the first `k` have been taken, in order; the request fields hold the
latest of them, and the response is a right response to it: what the laws say its operation's results are, or the
fault. -/
def Obligations.ResponsesComeInRequestOrder : Prop :=
  ∀ (rs : List Request) (rest : List HostEvent) (s : State),
    s.inbox = rs.map .request ++ rest →
    ∀ k ≤ rs.length, ∃ t : State,
      Host.Core.run Sys2Proof.core k s = .next t ∧
      t.inbox = (rs.drop k).map .request ++ rest ∧
      (∀ r : Request, 0 < k → rs[k - 1]? = some r → t.req = r ∧ t.answered = true ∧ RespondsTo r t.rsp)

/-- Every step answers a next state, from every state. For a step that takes a request this is the spec's (R240, R241,
R246, R275). That a reset is a step is the model's choice (log 7; R270 asks for no reset transition), and so is that an
idle unit steps (log 2; R20 says only that idle time changes no result). -/
def Obligations.EveryStepCompletes : Prop :=
  ∀ s : State, ∃ t : State, step s = .next t

/-- The invariant that every step keeps: a response that a step produced is a right response to the request fields beside
it. -/
def Obligations.ResponseMatchesItsRequestIsKept : Prop :=
  ∀ s t : State, s.Inv → step s = .next t → t.Inv

/-- The invariant holds after power-on, where no response has been produced and nothing is offered (the model's choice,
log 5 and log 11). -/
def Obligations.ResetHasNoResponseYet : Prop :=
  State.reset.Inv ∧ State.reset.answered = false ∧ State.reset.inbox = []

/-- R270: a reset before a request changes nothing that the request's response shows: the same fault bit, and for a defined
code the same response, as with no reset; and the request after it is taken next. -/
def Obligations.ResetChangesNoLaterResponse : Prop :=
  ∀ (s : State) (r : Request) (rest : List HostEvent), ∃ t t' : State,
    Host.Core.run Sys2Proof.core 2 { s with inbox := .reset :: .request r :: rest } = .next t ∧
    Host.Core.run Sys2Proof.core 1 { s with inbox := .request r :: rest } = .next t' ∧
    t.req = t'.req ∧ t.inbox = t'.inbox ∧ t.rsp.fault = t'.rsp.fault ∧
    (reservedOp r.op = false → t.rsp = t'.rsp)

/-- The model's choice (log 7): a reset is a step of its own, which keeps the request fields and leaves no response that a
claim may read. -/
def Obligations.ResetLeavesNoResponse : Prop :=
  ∀ (s : State) (rest : List HostEvent), s.inbox = .reset :: rest →
    ∃ (p : Response) (k : Nat),
      step s = .next { s with inbox := rest, rsp := p, answered := false, freeIndex := k }

/-- The model's choice (log 2): with nothing offered a step changes nothing. -/
def Obligations.IdleStepChangesNothing : Prop :=
  ∀ s : State, s.inbox = [] → step s = .next s
end

