-- ==== Sys2Proof/Laws/Divisibility.lean ====
section
/-! SUPPORT. What each divisibility test answers, as propositions: the lemmas that later proofs cite instead of unfolding
a test. -/

namespace Sys2Proof.Machine

/-! ## MOD -/

theorem testMod_div_iff (site : Site) (n : Nat) :
    (testMod site n).div = true ↔ n % site.divisor = 0 := decide_eq_true_iff

@[simp] theorem testMod_q (site : Site) (n : Nat) : (testMod site n).q = n / site.divisor := rfl

/-! ## ROT -/

theorem testRot_div_iff (site : Site) (n : Nat) :
    (testRot site n).div = true ↔ (testRot site n).q ≤ rotThreshold site := decide_eq_true_iff

theorem testRot_q (site : Site) (n : Nat) :
    (testRot site n).q = rotr site.width.bits (trunc site.width.bits (n * rotMultiplier site)) (twoPower site) := rfl

/-! ## WM -/

theorem testWide_div_iff (site : Site) (n : Nat) :
    (testWide site n).div = true ↔ n * wideMultiplier site % 2 ^ wideF site < wideMultiplier site :=
  decide_eq_true_iff

theorem testWide_q (site : Site) (n : Nat) :
    (testWide site n).q = n * wideMultiplier site / 2 ^ wideF site := rfl

theorem testWideWmul_div_iff (site : Site) (n : Nat) :
    (testWideWmul site n).div = true ↔
      (wmulNat n (wideMultiplier site)).1 % 2 ^ wideK site = 0 ∧
      (wmulNat n (wideMultiplier site)).2 < wideMultiplier site := by
  unfold testWideWmul
  rw [Bool.and_eq_true, decide_eq_true_eq, decide_eq_true_eq]

theorem testWideWmul_q (site : Site) (n : Nat) :
    (testWideWmul site n).q = (wmulNat n (wideMultiplier site)).1 / 2 ^ wideK site := rfl

theorem testWideWmul100_q (n : Nat) :
    (testWideWmul100 n).q = (n + (wmulNat n wideLow100).1) / 2 ^ 7 := rfl

theorem wmulNat_eq (x y : Nat) : wmulNat x y = (x * y / 2 ^ 64, x * y % 2 ^ 64) := rfl

theorem testWideWmul100_div_iff (n : Nat) :
    (testWideWmul100 n).div = true ↔
      (n + (wmulNat n wideLow100).1) % 128 = 0 ∨
      ((n + (wmulNat n wideLow100).1) % 128 = 1 ∧ (wmulNat n wideLow100).2 < wideLow100) := by
  unfold testWideWmul100
  rw [Bool.or_eq_true, Bool.and_eq_true, decide_eq_true_eq, decide_eq_true_eq, decide_eq_true_eq]

/-! ## SH -/

theorem testShift_div_iff (site : Site) (n : Nat) :
    (testShift site n).div = true ↔ shiftProduct site n < shiftThreshold site := decide_eq_true_iff

theorem testShift_q (site : Site) (n : Nat) :
    (testShift site n).q = shiftProduct site n / 2 ^ twoPower site := rfl

theorem shiftProduct_eq (site : Site) (n : Nat) :
    shiftProduct site n = n * shiftMultiplier site % 2 ^ shiftB site := rfl

/-! ## Test results and the fast path -/

/-- Two test results are equal when both their parts are. -/
theorem TestResult.eq_iff_parts (a b : TestResult) : a = b ↔ (a.div = true ↔ b.div = true) ∧ a.q = b.q := by
  cases a
  cases b
  rw [TestResult.mk.injEq, Bool.eq_iff_iff]

/-- R147: the fast path's two conditions. -/
theorem fastPath_iff (T : Tester) (n : Nat) :
    fastPath T n = true ↔ (T .w64d1e8 n).div = true ∧ (T .w64d1e8 n).q ≤ 2 ^ 32 - 1 := by
  unfold fastPath
  rw [Bool.and_eq_true, decide_eq_true_eq]

end Sys2Proof.Machine
end

