-- ==== Sys2Proof/Laws/Encoding.lean ====
section
/-! SUPPORT. The canonical words as numbers, and what the assembler does with a line. -/

namespace Sys2Proof

/-- The request word as a number: each field at its place value (R23). -/
theorem Request.word_toNat (r : Request) :
    r.word.toNat = r.op.toNat * 2 ^ 128 + r.a.toNat * 2 ^ 64 + r.b.toNat := by
  have hb := r.b.isLt
  have ha := r.a.isLt
  rw [Request.word, BitVec.toNat_append, BitVec.toNat_append, ← Nat.shiftLeft_add_eq_or_of_lt hb,
    ← Nat.shiftLeft_add_eq_or_of_lt ha, Nat.shiftLeft_eq, Nat.shiftLeft_eq]
  ring

/-- The response word as a number: each field at its place value (R23). -/
theorem Machine.Response.word_toNat (p : Machine.Response) :
    p.word.toNat = p.fault.toNat * 2 ^ 128 + p.r1.toNat * 2 ^ 64 + p.r0.toNat := by
  have h0 := p.r0.isLt
  have h1 := p.r1.isLt
  rw [Machine.Response.word, BitVec.toNat_append, BitVec.toNat_append, ← Nat.shiftLeft_add_eq_or_of_lt h0,
    ← Nat.shiftLeft_add_eq_or_of_lt h1, Nat.shiftLeft_eq, Nat.shiftLeft_eq]
  ring

/-- The low half of a widened 32-bit operand is the operand. -/
@[simp] theorem low_half_of_setWidth (n : Half) : (n.setWidth 64).extractLsb' 0 32 = n := by
  apply BitVec.eq_of_toNat_eq
  have := n.isLt
  simp only [BitVec.extractLsb'_toNat, BitVec.toNat_setWidth, Nat.shiftRight_zero]
  omega

/-- An operation code is one of the 64 numbers: what holds of each holds of every code. -/
theorem forall_opcode {P : Opcode → Prop} (h : ∀ k : Fin 64, P (BitVec.ofFin k)) (op : Opcode) : P op := h op.toFin

/-- The assembler accepts only well-formed lines. -/
theorem wellFormed_of_assemble {l : AsmLine} {i : Instr} (h : assemble l = some i) : l.wellFormed = true := by
  unfold assemble at h
  split at h
  · assumption
  · cases h

/-- A program that assembles, from its first line: a comment adds nothing, a line adds its operation's request. -/
theorem assembleProgram_cons {t : String} {ts : List String} {rs : List Request}
    (h : assembleProgram (t :: ts) = some rs) :
    (parseLine t = .comment ∧ assembleProgram ts = some rs) ∨
    ∃ l i rest, parseLine t = .line l ∧ assemble l = some i ∧ assembleProgram ts = some rest ∧
      rs = encode i :: rest := by
  cases hp : parseLine t with
  | comment => simp only [assembleProgram, hp] at h; exact .inl ⟨rfl, h⟩
  | notALine => simp [assembleProgram, hp] at h
  | line l =>
    cases hl : assemble l with
    | none => simp [assembleProgram, hp, hl] at h
    | some i =>
      cases hr : assembleProgram ts with
      | none => simp [assembleProgram, hp, hl, hr] at h
      | some rest =>
        simp only [assembleProgram, hp, hl, hr, Option.some.injEq] at h
        exact .inr ⟨l, i, rest, rfl, hl, rfl, h.symm⟩

end Sys2Proof
end

