-- ==== Sys2Proof/Laws/State.lean ====
section
/-! SUPPORT. One lemma for each field and each update of the state. -/

namespace Sys2Proof.Machine

variable (s : State)

@[simp] theorem State.take_req (r : Request) (rest : List HostEvent) : (s.take r rest).req = r := rfl
@[simp] theorem State.take_rsp (r : Request) (rest : List HostEvent) : (s.take r rest).rsp = s.rsp := rfl
@[simp] theorem State.take_inbox (r : Request) (rest : List HostEvent) : (s.take r rest).inbox = rest := rfl
@[simp] theorem State.take_answered (r : Request) (rest : List HostEvent) :
    (s.take r rest).answered = s.answered := rfl
@[simp] theorem State.take_freeIndex (r : Request) (rest : List HostEvent) :
    (s.take r rest).freeIndex = s.freeIndex := rfl

@[simp] theorem State.respond_req (r0 r1 : Word) : (s.respond r0 r1).req = s.req := rfl
@[simp] theorem State.respond_rsp (r0 r1 : Word) :
    (s.respond r0 r1).rsp = { fault := 0#1, r1 := r1, r0 := r0 } := rfl
@[simp] theorem State.respond_inbox (r0 r1 : Word) : (s.respond r0 r1).inbox = s.inbox := rfl
@[simp] theorem State.respond_answered (r0 r1 : Word) : (s.respond r0 r1).answered = true := rfl
@[simp] theorem State.respond_freeIndex (r0 r1 : Word) : (s.respond r0 r1).freeIndex = s.freeIndex := rfl

@[simp] theorem State.respondTrim_req (t : TrimResult) : (s.respondTrim t).req = s.req := rfl
@[simp] theorem State.respondTrim_rsp (t : TrimResult) :
    (s.respondTrim t).rsp = { fault := 0#1, r1 := zext64 t.removedCount, r0 := zext64 t.trimmed } := rfl
@[simp] theorem State.respondTrim_inbox (t : TrimResult) : (s.respondTrim t).inbox = s.inbox := rfl
@[simp] theorem State.respondTrim_answered (t : TrimResult) : (s.respondTrim t).answered = true := rfl
@[simp] theorem State.respondTrim_freeIndex (t : TrimResult) : (s.respondTrim t).freeIndex = s.freeIndex := rfl

@[simp] theorem State.raiseIllegalOperation_req : s.raiseIllegalOperation.req = s.req := rfl
@[simp] theorem State.raiseIllegalOperation_fault : s.raiseIllegalOperation.rsp.fault = 1#1 := rfl
@[simp] theorem State.raiseIllegalOperation_inbox : s.raiseIllegalOperation.inbox = s.inbox := rfl
@[simp] theorem State.raiseIllegalOperation_answered : s.raiseIllegalOperation.answered = true := rfl
@[simp] theorem State.raiseIllegalOperation_freeIndex :
    s.raiseIllegalOperation.freeIndex = s.freeIndex + 1 := rfl

@[simp] theorem State.resetUnit_req : s.resetUnit.req = s.req := rfl
@[simp] theorem State.resetUnit_inbox : s.resetUnit.inbox = s.inbox := rfl
@[simp] theorem State.resetUnit_answered : s.resetUnit.answered = false := rfl
@[simp] theorem State.resetUnit_freeIndex : s.resetUnit.freeIndex = s.freeIndex + 1 := rfl

@[simp] theorem State.withFetchWord_req (nbits w : Nat) : (s.withFetchWord nbits w).req = s.req := rfl
@[simp] theorem State.withFetchWord_rsp (nbits w : Nat) : (s.withFetchWord nbits w).rsp = s.rsp := rfl
@[simp] theorem State.withFetchWord_inbox (nbits w : Nat) :
    (s.withFetchWord nbits w).inbox = .request (requestOfTableWord nbits w) :: s.inbox := rfl
@[simp] theorem State.withFetchWord_answered (nbits w : Nat) :
    (s.withFetchWord nbits w).answered = s.answered := rfl
@[simp] theorem State.withFetchWord_freeIndex (nbits w : Nat) :
    (s.withFetchWord nbits w).freeIndex = s.freeIndex := rfl

end Sys2Proof.Machine
end

