-- ==== Sys2Proof/Laws/Ops.lean ====
section
/-! SUPPORT. What each shared operation can do, said once: the lemmas that later proofs cite instead of unfolding. -/

namespace Sys2Proof.Machine

/-! ## The step -/

/-- With nothing offered the step finds nothing. -/
theorem takeEvent_nil {s : State} (h : s.inbox = []) : s.takeEvent = .idle := by
  simp [State.takeEvent, h]

/-- The oldest event is a reset. -/
theorem takeEvent_reset {s : State} {rest : List HostEvent} (h : s.inbox = .reset :: rest) :
    s.takeEvent = .reset { s with inbox := rest } := by
  simp [State.takeEvent, h]

/-- The oldest event is a request. -/
theorem takeEvent_request {s : State} {r : Request} {rest : List HostEvent} (h : s.inbox = .request r :: rest) :
    s.takeEvent = .request (s.take r rest) := by
  simp [State.takeEvent, h]

/-- Every operation answers, and changes the response fields and `answered` alone. -/
theorem exec_responds (i : Instr) (s : State) : ∃ r0 r1 : Word, exec i s = .next (s.respond r0 r1) := by
  cases i <;> exact ⟨_, _, rfl⟩

/-- Everything a step can do when it answers `t`: nothing (idle), a reset, an operation, or the exception. -/
theorem step_cases {s t : State} (h : step s = .next t) :
    (s.inbox = [] ∧ t = s) ∨
    (∃ rest, s.inbox = .reset :: rest ∧ t = State.resetUnit { s with inbox := rest }) ∨
    (∃ r rest i, s.inbox = .request r :: rest ∧ decode r = .instr i ∧ exec i (s.take r rest) = .next t) ∨
    (∃ r rest why, s.inbox = .request r :: rest ∧ decode r = .reserved why ∧
      t = (s.take r rest).raiseIllegalOperation) := by
  rcases hs : s.inbox with _ | ⟨e, rest⟩
  · rw [step, takeEvent_nil hs] at h
    cases h
    exact .inl ⟨rfl, rfl⟩
  · cases e with
    | reset =>
      rw [step, takeEvent_reset hs] at h
      cases h
      exact .inr (.inl ⟨rest, rfl, rfl⟩)
    | request r =>
      rw [step, takeEvent_request hs] at h
      simp only [State.take_req] at h
      cases hd : decode r with
      | instr i =>
        rw [hd] at h
        exact .inr (.inr (.inl ⟨r, rest, i, rfl, hd, h⟩))
      | reserved why =>
        rw [hd] at h
        cases h
        exact .inr (.inr (.inr ⟨r, rest, why, rfl, hd, rfl⟩))

/-! ## The peel loop -/

/-- No fuel: the loop answers what it was given. -/
@[simp] theorem peelLoop_zero (T : Tester) (site : Site) (digits n s : Nat) :
    peelLoop T site digits 0 n s = (n, s) := rfl

/-- The test accepts: the loop goes on with the quotient. -/
theorem peelLoop_accept {T : Tester} {site : Site} {n : Nat} (digits fuel s : Nat) (h : (T site n).div = true) :
    peelLoop T site digits (fuel + 1) n s = peelLoop T site digits fuel (T site n).q (s + digits) := by
  simp [peelLoop, h]

/-- The test rejects: the loop ends, without changing `n` (R130). -/
theorem peelLoop_reject {T : Tester} {site : Site} {n : Nat} (digits fuel s : Nat) (h : (T site n).div = false) :
    peelLoop T site digits (fuel + 1) n s = (n, s) := by
  simp [peelLoop, h]

/-- The count only ever shifts the result: a loop started with count `s` counts `s` more. -/
theorem peelLoop_count (T : Tester) (site : Site) (digits : Nat) (fuel n s : Nat) :
    peelLoop T site digits fuel n s =
      ((peelLoop T site digits fuel n 0).1, (peelLoop T site digits fuel n 0).2 + s) := by
  induction fuel generalizing n s with
  | zero => simp
  | succ fuel ih =>
    cases h : (T site n).div with
    | false => simp [peelLoop_reject, h]
    | true =>
      rw [peelLoop_accept _ _ _ h, peelLoop_accept _ _ _ h, ih _ (s + digits), ih _ (0 + digits)]
      simp only [Prod.mk.injEq, true_and]
      omega

/-! ## Widths -/

/-- The width of the rows that a schedule uses at a width. -/
@[simp] theorem by10_width (w : Width) : w.by10.width = w := by cases w <;> rfl
@[simp] theorem by100_width (w : Width) : w.by100.width = w := by cases w <;> rfl
@[simp] theorem by10_divisor (w : Width) : w.by10.divisor = 10 := by cases w <;> rfl
@[simp] theorem by100_divisor (w : Width) : w.by100.divisor = 100 := by cases w <;> rfl

end Sys2Proof.Machine
end

