-- ==== Sys2Proof/Laws/PerInstr.lean ====
section
/-! SUPPORT. One statement about every instruction as syntax, a lemma for each constructor. -/

namespace Sys2Proof.Laws

/-- The request that encode writes holds a code that selects an operation (R66) and 0 in every ignored bit (R70). -/
def EncodesADefinedOp.Statement (i : Instr) : Prop :=
  Machine.reservedOp (encode i).op = false ∧ (encode i).ignoredBitsZero = true

/-- A 32-bit operand leaves the ignored half of `a` 0. -/
theorem high_half_zero (n : Half) : (n.setWidth 64).extractLsb' 32 32 = 0#32 := by
  apply BitVec.eq_of_toNat_eq
  have := n.isLt
  simp [BitVec.extractLsb'_toNat, Nat.shiftRight_eq_div_pow]
  omega

/-- A 32-bit remover's request. -/
theorem encodes_narrow {i : Instr} (n : Half) (hop : Machine.reservedOp i.op = false)
    (ha : i.operandA = n.setWidth 64) (hb : i.operandB = 0#64) : EncodesADefinedOp.Statement i :=
  ⟨hop, by simp [Request.ignoredBitsZero, encode, ha, hb, high_half_zero]⟩

/-- A 64-bit remover's request. -/
theorem encodes_wide {i : Instr} (hop : Machine.reservedOp i.op = false)
    (hw : i.op.getLsbD 4 = true) (hb : i.operandB = 0#64) : EncodesADefinedOp.Statement i :=
  ⟨hop, by simp [Request.ignoredBitsZero, encode, hw, hb]⟩

theorem EncodesADefinedOp.rtz32Naive (n : Half) : EncodesADefinedOp.Statement (.rtz32Naive n) :=
  encodes_narrow n rfl rfl rfl
theorem EncodesADefinedOp.rtz32Gm (n : Half) : EncodesADefinedOp.Statement (.rtz32Gm n) :=
  encodes_narrow n rfl rfl rfl
theorem EncodesADefinedOp.rtz32Lemire (n : Half) : EncodesADefinedOp.Statement (.rtz32Lemire n) :=
  encodes_narrow n rfl rfl rfl
theorem EncodesADefinedOp.rtz32Ggm (n : Half) : EncodesADefinedOp.Statement (.rtz32Ggm n) :=
  encodes_narrow n rfl rfl rfl
theorem EncodesADefinedOp.rtz32Naive21 (n : Half) : EncodesADefinedOp.Statement (.rtz32Naive21 n) :=
  encodes_narrow n rfl rfl rfl
theorem EncodesADefinedOp.rtz32Gm21 (n : Half) : EncodesADefinedOp.Statement (.rtz32Gm21 n) :=
  encodes_narrow n rfl rfl rfl
theorem EncodesADefinedOp.rtz32Lemire21 (n : Half) : EncodesADefinedOp.Statement (.rtz32Lemire21 n) :=
  encodes_narrow n rfl rfl rfl
theorem EncodesADefinedOp.rtz32Ggm21 (n : Half) : EncodesADefinedOp.Statement (.rtz32Ggm21 n) :=
  encodes_narrow n rfl rfl rfl
theorem EncodesADefinedOp.rtz32Base (n : Half) : EncodesADefinedOp.Statement (.rtz32Base n) :=
  encodes_narrow n rfl rfl rfl
theorem EncodesADefinedOp.rtz64Naive (n : Word) : EncodesADefinedOp.Statement (.rtz64Naive n) :=
  encodes_wide rfl (by simp [Instr.op]) rfl
theorem EncodesADefinedOp.rtz64Gm (n : Word) : EncodesADefinedOp.Statement (.rtz64Gm n) :=
  encodes_wide rfl (by simp [Instr.op]) rfl
theorem EncodesADefinedOp.rtz64Lemire (n : Word) : EncodesADefinedOp.Statement (.rtz64Lemire n) :=
  encodes_wide rfl (by simp [Instr.op]) rfl
theorem EncodesADefinedOp.rtz64Ggm (n : Word) : EncodesADefinedOp.Statement (.rtz64Ggm n) :=
  encodes_wide rfl (by simp [Instr.op]) rfl
theorem EncodesADefinedOp.rtz64Naive21 (n : Word) : EncodesADefinedOp.Statement (.rtz64Naive21 n) :=
  encodes_wide rfl (by simp [Instr.op]) rfl
theorem EncodesADefinedOp.rtz64Gm21 (n : Word) : EncodesADefinedOp.Statement (.rtz64Gm21 n) :=
  encodes_wide rfl (by simp [Instr.op]) rfl
theorem EncodesADefinedOp.rtz64Lemire21 (n : Word) : EncodesADefinedOp.Statement (.rtz64Lemire21 n) :=
  encodes_wide rfl (by simp [Instr.op]) rfl
theorem EncodesADefinedOp.rtz64Ggm21 (n : Word) : EncodesADefinedOp.Statement (.rtz64Ggm21 n) :=
  encodes_wide rfl (by simp [Instr.op]) rfl
theorem EncodesADefinedOp.rtz64Naive821 (n : Word) : EncodesADefinedOp.Statement (.rtz64Naive821 n) :=
  encodes_wide rfl (by simp [Instr.op]) rfl
theorem EncodesADefinedOp.rtz64Gm821 (n : Word) : EncodesADefinedOp.Statement (.rtz64Gm821 n) :=
  encodes_wide rfl (by simp [Instr.op]) rfl
theorem EncodesADefinedOp.rtz64Lemire821 (n : Word) : EncodesADefinedOp.Statement (.rtz64Lemire821 n) :=
  encodes_wide rfl (by simp [Instr.op]) rfl
theorem EncodesADefinedOp.rtz64Ggm821 (n : Word) : EncodesADefinedOp.Statement (.rtz64Ggm821 n) :=
  encodes_wide rfl (by simp [Instr.op]) rfl
theorem EncodesADefinedOp.rtz64Base (n : Word) : EncodesADefinedOp.Statement (.rtz64Base n) :=
  encodes_wide rfl (by simp [Instr.op]) rfl
theorem EncodesADefinedOp.wmul (x y : Word) : EncodesADefinedOp.Statement (.wmul x y) :=
  ⟨rfl, by simp [Request.ignoredBitsZero, encode, Instr.op]⟩

end Sys2Proof.Laws
end

