-- ==== Sys2Proof/Tests/Slice0.lean ====
section
/-! SUPPORT. Tests. The expected values are the spec's: spec/95 (its section is named at each test) or the corner cases of
the operation's rule. No spec value comes from running the model. After the tests, a witness for the hypotheses of each
statement that has some. -/

namespace Sys2Proof.Machine.Tests

/-! ## Helpers -/

/-- The response of an outcome. -/
def rspOf : Host.Outcome State Fault Refusal → Option Response
  | .next s => some s.rsp
  | .fault _ => none
  | .refused _ => none

/-- The machine after reset, with the host offering the given requests. -/
def offering (rs : List Request) : State := { State.reset with inbox := rs.map .request }

/-- The response word after the last of the given request words. -/
def answer (ws : List (BitVec 134)) : Option (BitVec 129) :=
  (rspOf (Host.Core.run Sys2Proof.core ws.length (offering (ws.map Request.ofWord)))).map Response.word

/-- The fault bit after the last of the given request words. -/
def faultBit (ws : List (BitVec 134)) : Option (BitVec 1) :=
  (rspOf (Host.Core.run Sys2Proof.core ws.length (offering (ws.map Request.ofWord)))).map Response.fault

/-- The pair `(r0, r1)` and no fault: what an operation answers in the reset state. -/
def answers (i : Instr) (r0 r1 : Nat) : Bool :=
  rspOf (exec i State.reset) == some { fault := 0#1, r1 := BitVec.ofNat 64 r1, r0 := BitVec.ofNat 64 r0 }

/-! ## WellFormed: each check refuses an ill-formed term (R70, R71) -/

theorem test_no_821_at_width_32 : AsmLine.wellFormed (.rtz32 (.peel .gm .eightTwoOne) 120000) = false := by decide
theorem test_literal_of_width_32 :
    AsmLine.wellFormed (.rtz32 .base 4294967296) = false ∧ AsmLine.wellFormed (.rtz32 .base 4294967295) = true := by decide
theorem test_literal_of_width_64 :
    AsmLine.wellFormed (.rtz64 .base 18446744073709551616) = false ∧
    AsmLine.wellFormed (.rtz64 .base 18446744073709551615) = true := by decide
theorem test_literal_x_of_wmul : AsmLine.wellFormed (.wmul 18446744073709551616 1) = false := by decide
theorem test_literal_y_of_wmul : AsmLine.wellFormed (.wmul 1 18446744073709551616) = false := by decide
theorem test_ill_formed_lines_stand_for_nothing :
    assemble (.rtz32 (.peel .naive .eightTwoOne) 5) = none ∧ assemble (.wmul 18446744073709551616 1) = none := by decide
theorem test_ignored_high_half : Request.ignoredBitsZero { op := 0x05#6, a := 0x100000000#64, b := 0#64 } = false := by
  decide
theorem test_ignored_b_32 : Request.ignoredBitsZero { op := 0x05#6, a := 5#64, b := 1#64 } = false := by decide
theorem test_ignored_b_64 : Request.ignoredBitsZero { op := 0x1B#6, a := 5#64, b := 1#64 } = false := by decide
theorem test_nothing_ignored_by_wmul :
    Request.ignoredBitsZero { op := 0x20#6, a := 0xFFFFFFFFFFFFFFFF#64, b := 0xFFFFFFFFFFFFFFFF#64 } = true := by decide

/-! ## The assembler's text: lines of spec/95 section 6, and lines that are none -/

theorem test_text_of_P1 :
    assembleProgram
      ["WMUL        479, 10000000000000        ; -> r0=4790000000000000, r1=0",
       "; host: r1 = 0, so the product fits in 64 bits; pass r0 on",
       "RTZ64.GM821 4790000000000000           ; -> (479, 13)"] =
    some [Request.ofWord 0x2000000000000001DF000009184E72A000#134,
          Request.ofWord 0x190011047AC87960000000000000000000#134] := by decide
theorem test_hexadecimal_literals :
    parseLine "WMUL 0xFFFFFFFFFFFFFFFF, 0xFFFF_FFFF_FFFF_FFFF" =
      .line (.wmul 18446744073709551615 18446744073709551615) := by decide
theorem test_text_that_is_no_line :
    parseLine "RTZ32.GM 0x" = .notALine ∧ parseLine "RTZ16.GM 5" = .notALine ∧ parseLine "WMUL 5 ; 6" = .notALine ∧
    parseLine "WMUL 5 6 7" = .notALine ∧ parseLine "RTZ64.GM -5" = .notALine := by decide

/-! ## Decode: a request word for every operation

The words of spec/95 section 6, or written out from R23, R61 and R66: two digits of `op`, sixteen of `a`, sixteen of `b`. -/

theorem test_decode_rtz32Naive : decodeWord 0x00000000000001D4C00000000000000000#134 = .instr (.rtz32Naive 120000#32) := by decide

theorem test_decode_rtz32Gm : decodeWord 0x01000000000001D4C00000000000000000#134 = .instr (.rtz32Gm 120000#32) := by decide

theorem test_decode_rtz32Lemire : decodeWord 0x02000000000001D4C00000000000000000#134 = .instr (.rtz32Lemire 120000#32) := by decide

theorem test_decode_rtz32Ggm : decodeWord 0x03000000000001D4C00000000000000000#134 = .instr (.rtz32Ggm 120000#32) := by decide

theorem test_decode_rtz32Naive21 : decodeWord 0x0400000000009896800000000000000000#134 = .instr (.rtz32Naive21 10000000#32) := by decide

theorem test_decode_rtz32Gm21 : decodeWord 0x05DEADBEEF0001D4C0FFFFFFFFFFFFFFFF#134 = .instr (.rtz32Gm21 120000#32) := by decide

theorem test_decode_rtz32Lemire21 : decodeWord 0x06000000000001D4C00000000000000000#134 = .instr (.rtz32Lemire21 120000#32) := by decide

theorem test_decode_rtz32Ggm21 : decodeWord 0x07000000000001D4C00000000000000000#134 = .instr (.rtz32Ggm21 120000#32) := by decide

theorem test_decode_rtz32Base : decodeWord 0x0CDEADBEEF0001D4C00123456789ABCDEF#134 = .instr (.rtz32Base 120000#32) := by decide

theorem test_decode_rtz64Naive : decodeWord 0x100011047AC87960000000000000000000#134 = .instr (.rtz64Naive 4790000000000000#64) := by decide

theorem test_decode_rtz64Gm : decodeWord 0x116BC75E2D631000000000000000000000#134 = .instr (.rtz64Gm 7766279631452241920#64) := by decide

theorem test_decode_rtz64Lemire : decodeWord 0x120011047AC87960000000000000000000#134 = .instr (.rtz64Lemire 4790000000000000#64) := by decide

theorem test_decode_rtz64Ggm : decodeWord 0x130011047AC87960000000000000000000#134 = .instr (.rtz64Ggm 4790000000000000#64) := by decide

theorem test_decode_rtz64Naive21 : decodeWord 0x140011047AC87960000000000000000000#134 = .instr (.rtz64Naive21 4790000000000000#64) := by decide

theorem test_decode_rtz64Gm21 : decodeWord 0x150011047AC87960000000000000000000#134 = .instr (.rtz64Gm21 4790000000000000#64) := by decide

theorem test_decode_rtz64Lemire21 : decodeWord 0x168AC7230489E800000000000000000000#134 = .instr (.rtz64Lemire21 10000000000000000000#64) := by decide

theorem test_decode_rtz64Ggm21 : decodeWord 0x170011047AC87960000000000000000000#134 = .instr (.rtz64Ggm21 4790000000000000#64) := by decide

theorem test_decode_rtz64Naive821 : decodeWord 0x1805F5E100000000000000000000000000#134 = .instr (.rtz64Naive821 429496729600000000#64) := by decide

theorem test_decode_rtz64Gm821 : decodeWord 0x190011047AC87960000000000000000000#134 = .instr (.rtz64Gm821 4790000000000000#64) := by decide

theorem test_decode_rtz64Lemire821 : decodeWord 0x1A0011047AC87960000000000000000000#134 = .instr (.rtz64Lemire821 4790000000000000#64) := by decide

theorem test_decode_rtz64Ggm821 : decodeWord 0x1B8AC7230489E800000000000000000000#134 = .instr (.rtz64Ggm821 10000000000000000000#64) := by decide

theorem test_decode_rtz64Base : decodeWord 0x1C0011047AC87960000000000000000000#134 = .instr (.rtz64Base 4790000000000000#64) := by decide

theorem test_decode_wmul : decodeWord 0x2000000000000001DF000009184E72A000#134 = .instr (.wmul 479#64 10000000000000#64) := by decide


theorem test_decode_reserved :
    decodeWord 0x08000000000001D4C00000000000000000#134 = .reserved .eightDigitWidth32 ∧
    decodeWord 0x0D00000000000000050000000000000005#134 = .reserved .baselineTechnique32 ∧
    decodeWord 0x1F00000000000000050000000000000005#134 = .reserved .baselineTechnique64 ∧
    decodeWord 0x21FFFFFFFFFFFFFFFFFFFFFFFFFFFFFFFF#134 = .reserved .wideMultiplyOtherBits ∧
    decodeWord 0x3F00000000000000000000000000000000#134 = .reserved .wideMultiplyOtherBits := by decide

/-- The op field alone, as `match` of the table gives it, and a whole `word_match`. -/
theorem test_table_words :
    decodeTableWord 6 0x05 = some (.rtz32Gm21 0#32) ∧ decodeTableWord 8 0x1C = some (.rtz64Base 0#64) ∧
    decodeTableWord 8 0x20 = some (.wmul 0#64 0#64) ∧ decodeTableWord 8 0x3F = none ∧
    decodeTableWord 136 0x1100000000000000000000000000000000 = some (.rtz64Gm 0#64) := by decide

theorem test_fetched_word_runs_first :
    rspOf (step (State.reset.withFetchWord 136 0x0C000000000001D4C00000000000000000)) =
      some { fault := 0#1, r1 := 0#64, r0 := 120000#64 } := by decide

/-! ## Steps: the request words and response words of spec/95 section 6 -/

/-- P5 line 1. -/
theorem test_word_wmul :
    answer [0x2000000002540BE40000000002540BE400#134] =
      some 0x000000000000000056BC75E2D63100000#129 := by decide

/-- P2 line 1. -/
theorem test_word_rtz32Naive :
    answer [0x00000000000001D4C00000000000000000#134] =
      some 0x00000000000000004000000000000000C#129 := by decide

/-- P2 line 2. -/
theorem test_word_rtz32Gm :
    answer [0x01000000000001D4C00000000000000000#134] =
      some 0x00000000000000004000000000000000C#129 := by decide

/-- P2 line 3. -/
theorem test_word_rtz32Lemire :
    answer [0x02000000000001D4C00000000000000000#134] =
      some 0x00000000000000004000000000000000C#129 := by decide

/-- P2 line 4. -/
theorem test_word_rtz32Ggm :
    answer [0x03000000000001D4C00000000000000000#134] =
      some 0x00000000000000004000000000000000C#129 := by decide

/-- P2 line 5. -/
theorem test_word_rtz32Naive21 :
    answer [0x04000000000001D4C00000000000000000#134] =
      some 0x00000000000000004000000000000000C#129 := by decide

/-- P2 line 10, with every ignored bit in use. -/
theorem test_word_rtz32Gm21 :
    answer [0x05DEADBEEF0001D4C0FFFFFFFFFFFFFFFF#134] =
      some 0x00000000000000004000000000000000C#129 := by decide

/-- P2 line 7. -/
theorem test_word_rtz32Lemire21 :
    answer [0x06000000000001D4C00000000000000000#134] =
      some 0x00000000000000004000000000000000C#129 := by decide

/-- P2 line 8. -/
theorem test_word_rtz32Ggm21 :
    answer [0x07000000000001D4C00000000000000000#134] =
      some 0x00000000000000004000000000000000C#129 := by decide

/-- P2 line 11, with every ignored bit in use. -/
theorem test_word_rtz32Base :
    answer [0x0CDEADBEEF0001D4C00123456789ABCDEF#134] =
      some 0x00000000000000000000000000001D4C0#129 := by decide

/-- P5 line 2. -/
theorem test_word_rtz64Gm :
    answer [0x116BC75E2D631000000000000000000000#134] =
      some 0x000000000000000010AC7230489E80000#129 := by decide

/-- P3 line 1. -/
theorem test_word_rtz64Lemire21 :
    answer [0x168AC7230489E800000000000000000000#134] =
      some 0x000000000000000130000000000000001#129 := by decide

/-- P3 line 2. -/
theorem test_word_rtz64Ggm821 :
    answer [0x1B8AC7230489E800000000000000000000#134] =
      some 0x000000000000000130000000000000001#129 := by decide

/-- P3 line 4. -/
theorem test_word_rtz64Naive821 :
    answer [0x1805F5E100000000000000000000000000#134] =
      some 0x000000000000000080000000100000000#129 := by decide

/-- P1 line 2. -/
theorem test_word_rtz64Gm821 :
    answer [0x190011047AC87960000000000000000000#134] =
      some 0x0000000000000000D00000000000001DF#129 := by decide

/-- P4 lines 1 to 3 and 5: the fault is answered, and does not stick. -/
theorem test_fault_and_after :
    faultBit [0x08000000000001D4C00000000000000000#134] = some 1#1 ∧
    faultBit [0x08000000000001D4C00000000000000000#134, 0x3F00000000000000000000000000000000#134] = some 1#1 ∧
    answer [0x08000000000001D4C00000000000000000#134, 0x0400000000009896800000000000000000#134] =
      some 0x000000000000000070000000000000001#129 ∧
    answer [0x21FFFFFFFFFFFFFFFFFFFFFFFFFFFFFFFF#134, 0x20FFFFFFFFFFFFFFFFFFFFFFFFFFFFFFFF#134] =
      some 0x0FFFFFFFFFFFFFFFE0000000000000001#129 := by decide

/-- R270: a reset between two requests changes no response; after it no step has produced one. -/
theorem test_reset_between_requests :
    rspOf (Host.Core.run Sys2Proof.core 2
      { State.reset with inbox := [.reset, .request (Request.ofWord 0x05000000000001D4C00000000000000000#134)] }) =
      some { fault := 0#1, r1 := 4#64, r0 := 12#64 } := by decide

/-! ## Operations: the tables of spec/95 sections 2.1, 4.1 and 4.2 -/

theorem test_wmul_pairs :
    answers (.wmul 0xFFFFFFFFFFFFFFFF#64 0xFFFFFFFFFFFFFFFF#64) 1 0xFFFFFFFFFFFFFFFE = true ∧
    answers (.wmul 0x00000000FFFFFFFF#64 0xFFFFFFFFFFFFFFFF#64) 0xFFFFFFFF00000001 0x00000000FFFFFFFE = true ∧
    answers (.wmul 0x0000000100000000#64 0x0000000100000000#64) 0 1 = true ∧
    answers (.wmul 0x0000000000000000#64 0xFFFFFFFFFFFFFFFF#64) 0 0 = true := by decide

theorem test_rtz32Naive :
    answers (.rtz32Naive 4290000000#32) 429 7 = true ∧ answers (.rtz32Naive 5#32) 5 0 = true := by decide

theorem test_rtz32Gm :
    answers (.rtz32Gm 4294967290#32) 429496729 1 = true ∧ answers (.rtz32Gm 5#32) 5 0 = true := by decide

theorem test_rtz32Lemire :
    answers (.rtz32Lemire 1073741829#32) 1073741829 0 = true ∧ answers (.rtz32Lemire 4294967295#32) 4294967295 0 = true := by decide

theorem test_rtz32Ggm :
    answers (.rtz32Ggm 2147483653#32) 2147483653 0 = true ∧ answers (.rtz32Ggm 4294967290#32) 429496729 1 = true := by decide

theorem test_rtz32Naive21 :
    answers (.rtz32Naive21 4000000000#32) 4 9 = true ∧ answers (.rtz32Naive21 0#32) 0 0 = true := by decide

theorem test_rtz32Gm21 :
    answers (.rtz32Gm21 4294967200#32) 42949672 2 = true ∧ answers (.rtz32Gm21 50#32) 5 1 = true := by decide

theorem test_rtz32Lemire21 :
    answers (.rtz32Lemire21 3999999990#32) 399999999 1 = true ∧ answers (.rtz32Lemire21 4294967200#32) 42949672 2 = true := by decide

theorem test_rtz32Ggm21 :
    answers (.rtz32Ggm21 4294960000#32) 429496 4 = true ∧ answers (.rtz32Ggm21 25#32) 25 0 = true := by decide

theorem test_rtz32Base : answers (.rtz32Base 4294967295#32) 4294967295 0 = true := by decide

theorem test_rtz64Naive :
    answers (.rtz64Naive 10000000000000000000#64) 1 19 = true ∧
    answers (.rtz64Naive 0#64) 0 0 = true := by decide

theorem test_rtz64Gm :
    answers (.rtz64Gm 18446744073709551610#64) 1844674407370955161 1 = true ∧
    answers (.rtz64Gm 5#64) 5 0 = true := by decide

theorem test_rtz64Lemire :
    answers (.rtz64Lemire 18446744073709551610#64) 1844674407370955161 1 = true ∧
    answers (.rtz64Lemire 9223372036854775813#64) 9223372036854775813 0 = true := by decide

theorem test_rtz64Ggm :
    answers (.rtz64Ggm 9223372036854775810#64) 922337203685477581 1 = true ∧
    answers (.rtz64Ggm 9223372036854775813#64) 9223372036854775813 0 = true := by decide

theorem test_rtz64Naive21 :
    answers (.rtz64Naive21 18400000000000000000#64) 184 17 = true ∧
    answers (.rtz64Naive21 123456789#64) 123456789 0 = true := by decide

theorem test_rtz64Gm21 :
    answers (.rtz64Gm21 18446744073709551600#64) 184467440737095516 2 = true ∧
    answers (.rtz64Gm21 4790000000000000#64) 479 13 = true := by decide

theorem test_rtz64Lemire21 :
    answers (.rtz64Lemire21 15534100272597517199#64) 15534100272597517199 0 = true ∧
    answers (.rtz64Lemire21 18446744073709551600#64) 184467440737095516 2 = true := by decide

theorem test_rtz64Ggm21 :
    answers (.rtz64Ggm21 18446744073709551600#64) 184467440737095516 2 = true ∧
    answers (.rtz64Ggm21 10000000000000000000#64) 1 19 = true := by decide

theorem test_rtz64Naive821 :
    answers (.rtz64Naive821 429496729500000000#64) 4294967295 8 = true ∧
    answers (.rtz64Naive821 1000000000000000000#64) 1 18 = true := by decide

theorem test_rtz64Gm821 :
    answers (.rtz64Gm821 429496729500000000#64) 4294967295 8 = true ∧
    answers (.rtz64Gm821 429496729600000000#64) 4294967296 8 = true := by decide

theorem test_rtz64Lemire821 :
    answers (.rtz64Lemire821 429496729500000000#64) 4294967295 8 = true ∧
    answers (.rtz64Lemire821 429496729600000000#64) 4294967296 8 = true := by decide

theorem test_rtz64Ggm821 :
    answers (.rtz64Ggm821 429496729500000000#64) 4294967295 8 = true ∧
    answers (.rtz64Ggm821 18446744073700000000#64) 184467440737 8 = true := by decide

theorem test_rtz64Base : answers (.rtz64Base 10000000000000000000#64) 10000000000000000000 0 = true := by decide

/-! ## The parts: spec/95 sections 2.2 and 3 -/

/-- Section 2.2, third row: `intermediate` needs more than 32 bits. -/
theorem test_intermediate :
    intermediate (partials 0x1FFFFFFFF 0x1FFFFFFFF) = 0x2FFFFFFFC ∧
    wmulPortable 0x1FFFFFFFF#64 0x1FFFFFFFF#64 = (3#64, 0xFFFFFFFC00000001#64) := by decide
/-- Section 2.2, second row. -/
theorem test_partials :
    partials 0x0123456789ABCDEF 0xFEDCBA9876543210 =
      { ac := 0x0121FA0023E20B28, bc := 0x890F2A50AD05EBE8, ad := 0x0086A1C9358E7470, bd := 0x3FA27837E5618CF0 } := by
  decide
theorem test_row_32_10 :
    testRot .w32d10 4294967290 = { div := true, q := 429496729 } ∧
    testRot .w32d10 5 = { div := false, q := 0x80000000 } ∧
    testWide .w32d10 1073741829 = { div := false, q := 107374182 } ∧
    testShift .w32d10 2147483653 = { div := false, q := 3221225472 } := by decide
theorem test_row_32_100 :
    testRot .w32d100 4 = { div := false, q := 0x28F5C29 } ∧
    testWide .w32d100 4294967290 = { div := false, q := 42949672 } ∧
    testShift .w32d100 50 = { div := false, q := 2147483648 } ∧
    testShift .w32d100 4294967200 = { div := true, q := 42949672 } := by decide
theorem test_row_64_10 :
    testRot .w64d10 9223372036854775813 = { div := false, q := 0xC000000000000000 } ∧
    testWide .w64d10 479 = { div := false, q := 47 } ∧
    testShift .w64d10 18446744073709551615 = { div := false, q := 11068046444225730969 } := by decide
theorem test_row_64_100 :
    testRot .w64d100 25 = { div := false, q := 0x4000000000000000 } ∧
    testWide .w64d100 15534100272597517199 = { div := false, q := 155341002725975171 } ∧
    testWideWmul100 18446744073709551600 = { div := true, q := 184467440737095516 } ∧
    testShift .w64d100 219604096115589999 = { div := false, q := 2031337889069206577 } := by decide
theorem test_row_64_1e8 :
    testRot .w64d1e8 390625 = { div := false, q := 0x100000000000000 } ∧
    testWide .w64d1e8 18446744073700000000 = { div := true, q := 184467440737 } ∧
    shiftProduct .w64d1e8 9223372036854775808 = 0x108000000000000000 ∧
    testShift .w64d1e8 429496729600000000 = { div := true, q := 4294967296 } := by decide
/-- Section 4.2, the column of the 8-2-1 path. -/
theorem test_fast_path :
    fastPath testMod 429496729500000000 = true ∧ fastPath testRot 429496729600000000 = false ∧
    fastPath testWide 10000000000000000000 = false ∧ fastPath testShift 4790000000000000 = true := by decide
/-- R279's table: the inputs that reach the most tests. -/
theorem test_most_tests :
    peel1Tests testMod .w32 1000000000 = 10 ∧ peel21Tests testRot .w32 1000000000 = 6 ∧
    peel1Tests testWide .w64 10000000000000000000 = 20 ∧ peel21Tests testShift .w64 10000000000000000000 = 11 ∧
    peel821Tests testMod 10000000000000000000 = 12 := by decide

/-! ## Witnesses: the hypotheses of each statement that has some, met together

Each name ends in the statement's. Where a statement has several clauses over one input, each clause's boundary is met. -/

/-- A request that a remover takes with every ignored bit in use. -/
def dirty : Request := { op := 0x05#6, a := 0xDEADBEEF0001D4C0#64, b := 0xFFFFFFFFFFFFFFFF#64 }

/-- The same request with every ignored bit 0. -/
def clean : Request := { op := 0x05#6, a := 0x000000000001D4C0#64, b := 0#64 }

/-- A request whose code is reserved. -/
def reservedRequest : Request := { op := 0x21#6, a := 1#64, b := 1#64 }

/-- The state after a step took `RTZ32.GM21 50`, with `reservedRequest` offered next (spec/95 section 4.1: `(5, 1)`). -/
def answeredState : State :=
  { State.reset with
    req := { op := 0x05#6, a := 50#64, b := 0#64 }, rsp := { fault := 0#1, r1 := 1#64, r0 := 5#64 }, answered := true
    inbox := [.request reservedRequest] }

theorem witness_EveryTestMeetsTheContract :
    4294967295 < 2 ^ Site.w32d10.width.bits ∧ 18446744073709551615 < 2 ^ Site.w64d1e8.width.bits ∧
    (testShift .w64d1e8 18446744073700000000).div = true ∧ (testRot .w32d10 4294967290).div = true := by decide

theorem witness_WideCompareQuotientIsFloor :
    18446744073709551615 < 2 ^ Site.w64d100.width.bits ∧ 0 < 2 ^ Site.w32d10.width.bits := by decide

theorem witness_WideCompareConstantsAreTheSmallest : 2 < wideK .w32d10 ∧ 6 < wideK .w64d100 := by decide

theorem witness_WideCompareFromOneWmul :
    (4294967295 < 2 ^ Site.w32d100.width.bits ∧ Site.w32d100.width = .w32) ∧
    18446744073709551615 < 2 ^ Site.w64d100.width.bits := by decide

theorem witness_WideCompareBy100NeedsOneDisjunct :
    (18446744073709551600 < 2 ^ 64 ∧ (testWide .w64d100 18446744073709551600).div = true) ∧
    (18446744073709551615 < 2 ^ 64 ∧ (testWide .w64d100 18446744073709551615).div = false) := by decide

theorem witness_ShiftProductFromOneWmul : Site.w64d1e8.width = .w64 ∧ 18446744073709551615 < 2 ^ 64 := by decide

/-- The naive test meets the contract by its definition. -/
theorem witness_SchedulesComputeRtz :
    MeetsContract testMod ∧ 4294967295 < 2 ^ Width.w32.bits ∧ 18446744073709551615 < 2 ^ Width.w64.bits := by
  refine ⟨fun site n _ => ⟨by simp [testMod], fun _ => rfl⟩, by decide, by decide⟩

theorem witness_RtzIsTheOnlyTrimResult : 0 < 1 ∧ 0 < 10000000000000000000 := by decide

theorem witness_PeelLoopsEndByTheFailingTest :
    (0 < 4000000000 ∧ 4000000000 < 2 ^ Width.w32.bits) ∧
    (0 < 10000000000000000000 ∧ 10000000000000000000 < 2 ^ Width.w64.bits ∧ Width.w64 = .w64) := by decide

theorem witness_TestsPerStepFollowTheZeros :
    (0 < 1 ∧ 1 < 2 ^ Width.w32.bits) ∧
    (0 < 429496729500000000 ∧ 429496729500000000 < 2 ^ 64 ∧
      429496729500000000 % 10 ^ 8 = 0 ∧ 429496729500000000 / 10 ^ 8 < 2 ^ 32) ∧
    (0 < 429496729600000000 ∧ 429496729600000000 < 2 ^ 64 ∧
      ¬ (429496729600000000 % 10 ^ 8 = 0 ∧ 429496729600000000 / 10 ^ 8 < 2 ^ 32)) := by decide

theorem witness_FastPathIsTakenExactlyWhereItFits :
    (429496729500000000 < 2 ^ 64 ∧ fastPath (tester .gm) 429496729500000000 = true) ∧
    (429496729600000000 < 2 ^ 64 ∧ fastPath (tester .gm) 429496729600000000 = false) := by decide

theorem witness_AllNonBaselineRemoversComputeRtz :
    Instr.rtz32Ggm21 ∈ [Instr.rtz32Naive, Instr.rtz32Gm, Instr.rtz32Lemire, Instr.rtz32Ggm,
      Instr.rtz32Naive21, Instr.rtz32Gm21, Instr.rtz32Lemire21, Instr.rtz32Ggm21] ∧
    Instr.rtz64Ggm821 ∈ [Instr.rtz64Naive, Instr.rtz64Gm, Instr.rtz64Lemire, Instr.rtz64Ggm,
      Instr.rtz64Naive21, Instr.rtz64Gm21, Instr.rtz64Lemire21, Instr.rtz64Ggm21,
      Instr.rtz64Naive821, Instr.rtz64Gm821, Instr.rtz64Lemire821, Instr.rtz64Ggm821] := by simp

theorem witness_ZeroInputGivesZeroPair :
    Instr.rtz32Base ∈ [Instr.rtz32Naive, Instr.rtz32Gm, Instr.rtz32Lemire, Instr.rtz32Ggm,
      Instr.rtz32Naive21, Instr.rtz32Gm21, Instr.rtz32Lemire21, Instr.rtz32Ggm21, Instr.rtz32Base] ∧
    Instr.rtz64Base ∈ [Instr.rtz64Naive, Instr.rtz64Gm, Instr.rtz64Lemire, Instr.rtz64Ggm,
      Instr.rtz64Naive21, Instr.rtz64Gm21, Instr.rtz64Lemire21, Instr.rtz64Ggm21,
      Instr.rtz64Naive821, Instr.rtz64Gm821, Instr.rtz64Lemire821, Instr.rtz64Ggm821, Instr.rtz64Base] := by simp

/-- The lists are those of `ZeroInputGivesZeroPair`. -/
theorem witness_RoundTripLaw :
    Instr.rtz32Gm ∈ [Instr.rtz32Naive, Instr.rtz32Gm, Instr.rtz32Lemire, Instr.rtz32Ggm,
      Instr.rtz32Naive21, Instr.rtz32Gm21, Instr.rtz32Lemire21, Instr.rtz32Ggm21, Instr.rtz32Base] ∧
    Instr.rtz64Gm ∈ [Instr.rtz64Naive, Instr.rtz64Gm, Instr.rtz64Lemire, Instr.rtz64Ggm,
      Instr.rtz64Naive21, Instr.rtz64Gm21, Instr.rtz64Lemire21, Instr.rtz64Ggm21,
      Instr.rtz64Naive821, Instr.rtz64Gm821, Instr.rtz64Lemire821, Instr.rtz64Ggm821, Instr.rtz64Base] := by simp

theorem witness_HostRoundTripThroughWmul :
    Instr.rtz64Lemire21 ∈ [Instr.rtz64Naive, Instr.rtz64Gm, Instr.rtz64Lemire, Instr.rtz64Ggm,
      Instr.rtz64Naive21, Instr.rtz64Gm21, Instr.rtz64Lemire21, Instr.rtz64Ggm21,
      Instr.rtz64Naive821, Instr.rtz64Gm821, Instr.rtz64Lemire821, Instr.rtz64Ggm821, Instr.rtz64Base] := by simp

/-- Besides the list's: both cases of the operand. -/
theorem witness_MaximalityLaw :
    (Instr.rtz32Lemire ∈ [Instr.rtz32Naive, Instr.rtz32Gm, Instr.rtz32Lemire, Instr.rtz32Ggm,
      Instr.rtz32Naive21, Instr.rtz32Gm21, Instr.rtz32Lemire21, Instr.rtz32Ggm21] ∧ 4294967295#32 ≠ 0#32) ∧
    (Instr.rtz64Naive821 ∈ [Instr.rtz64Naive, Instr.rtz64Gm, Instr.rtz64Lemire, Instr.rtz64Ggm,
      Instr.rtz64Naive21, Instr.rtz64Gm21, Instr.rtz64Lemire21, Instr.rtz64Ggm21,
      Instr.rtz64Naive821, Instr.rtz64Gm821, Instr.rtz64Lemire821, Instr.rtz64Ggm821] ∧ 1#64 ≠ 0#64) := by simp

/-- The ends of both widths' ranges, for `n` and for `n > 0`. -/
theorem witness_SchedulesSatisfyRoundTripAndMaximality :
    0 < 2 ^ Width.w32.bits ∧ (0 < 4294967295 ∧ 4294967295 < 2 ^ Width.w32.bits) ∧
    (0 < 1 ∧ 1 < 2 ^ Width.w64.bits) ∧ (0 < 18446744073709551615 ∧ 18446744073709551615 < 2 ^ Width.w64.bits) := by
  decide

theorem witness_CountsStayInRange :
    (Instr.rtz32Naive ∈ [Instr.rtz32Naive, Instr.rtz32Gm, Instr.rtz32Lemire, Instr.rtz32Ggm,
      Instr.rtz32Naive21, Instr.rtz32Gm21, Instr.rtz32Lemire21, Instr.rtz32Ggm21] ∧ 0 < (4000000000#32).toNat) ∧
    (Instr.rtz64Naive ∈ [Instr.rtz64Naive, Instr.rtz64Gm, Instr.rtz64Lemire, Instr.rtz64Ggm,
      Instr.rtz64Naive21, Instr.rtz64Gm21, Instr.rtz64Lemire21, Instr.rtz64Ggm21,
      Instr.rtz64Naive821, Instr.rtz64Gm821, Instr.rtz64Lemire821, Instr.rtz64Ggm821] ∧ 0 < (1#64).toNat) := by simp

theorem witness_DecodedRequestsEncodeBack :
    (decode dirty = .instr (.rtz32Gm21 120000#32) ∧ dirty.ignoredBitsZero = false) ∧
    (decode clean = .instr (.rtz32Gm21 120000#32) ∧ clean.ignoredBitsZero = true) := by decide

/-- Each of the 41 codes is in one class: the first and the last code of each. -/
theorem witness_ReservedCodesAreExactlyTheTable :
    reservedOp 0x08#6 = true ∧ reservedOp 0x0B#6 = true ∧ reservedOp 0x0C#6 = false ∧ reservedOp 0x0D#6 = true ∧
    reservedOp 0x0F#6 = true ∧ reservedOp 0x10#6 = false ∧ reservedOp 0x1C#6 = false ∧ reservedOp 0x1D#6 = true ∧
    reservedOp 0x1F#6 = true ∧ reservedOp 0x20#6 = false ∧ reservedOp 0x21#6 = true ∧ reservedOp 0x3F#6 = true := by
  decide

theorem witness_AssemblerWritesTheRequest :
    assemble (.wmul 18446744073709551615 0) = some (.wmul 18446744073709551615#64 0#64) ∧
    assemble (.rtz32 .base 4294967295) = some (.rtz32Base 4294967295#32) ∧
    assemble (.rtz64 (.peel .ggm .eightTwoOne) 18446744073709551615) =
      some (.rtz64Ggm821 18446744073709551615#64) := by decide

theorem witness_AssembledProgramsHoldDefinedRequests :
    assembleProgram ["; a comment", "RTZ32.GM21 120000"] = some [clean] := by decide

theorem witness_StepRunsTheDecodedInstruction :
    (offering [dirty]).inbox = .request dirty :: [] ∧ decode dirty = .instr (.rtz32Gm21 120000#32) := by decide

theorem witness_DefinedOperationsNeverFault :
    (offering [dirty]).inbox = .request dirty :: [] ∧ reservedOp dirty.op = false := by decide

/-- Both sides: a reserved code, and a defined one. -/
theorem witness_ReservedCodesRaiseIllegalOperation :
    ((offering [reservedRequest]).inbox = .request reservedRequest :: [] ∧ reservedOp reservedRequest.op = true) ∧
    ((offering [clean]).inbox = .request clean :: [] ∧ reservedOp clean.op = false) := by decide

theorem witness_AmongRequestsOnlyTheExceptionTakesAFreeValue :
    ((offering [reservedRequest]).inbox = .request reservedRequest :: [] ∧
      step (offering [reservedRequest]) =
        .next ((offering [reservedRequest]).take reservedRequest []).raiseIllegalOperation) ∧
    ((offering [clean]).inbox = .request clean :: [] ∧
      step (offering [clean]) = .next (((offering [clean]).take clean []).respond 12#64 4#64)) := ⟨⟨rfl, rfl⟩, ⟨rfl, rfl⟩⟩

theorem witness_ResponseDependsOnTheRequestAlone :
    State.inbox { answeredState with inbox := [.request dirty, .reset] } = .request dirty :: [.reset] ∧
    (offering [dirty]).inbox = .request dirty :: [] ∧ reservedOp dirty.op = false := by decide

/-- A 32-bit remover, whose high half may change, and a 64-bit one, whose operand may not. -/
theorem witness_IgnoredBitsChangeNoResult :
    (reservedOp clean.op = false ∧ clean.op.toNat < 0x20 ∧ dirty.op = clean.op ∧
      dirty.a.extractLsb' 0 32 = clean.a.extractLsb' 0 32 ∧ ¬ 0x10 ≤ clean.op.toNat ∧ dirty.a ≠ clean.a) ∧
    (reservedOp 0x10#6 = false ∧ (0x10#6).toNat < 0x20 ∧ 0x10 ≤ (0x10#6).toNat) := by decide

theorem witness_ResponseFormsOfRemovers :
    ((offering [clean]).inbox = .request clean :: [] ∧ reservedOp clean.op = false ∧ clean.op.toNat < 0x10) ∧
    (reservedOp 0x1C#6 = false ∧ (0x1C#6).toNat < 0x20) ∧ reservedOp 0x20#6 = false := by decide

theorem witness_ResponsesComeInRequestOrder :
    (offering [reservedRequest, clean]).inbox = [reservedRequest, clean].map .request ++ [] ∧
    2 ≤ [reservedRequest, clean].length ∧ 0 < 2 ∧ [reservedRequest, clean][2 - 1]? = some clean := by decide

/-- A state with a response, which the invariant speaks of, and a step from it. -/
theorem witness_ResponseMatchesItsRequestIsKept :
    answeredState.answered = true ∧ answeredState.Inv ∧
    step answeredState = .next (answeredState.take reservedRequest []).raiseIllegalOperation :=
  ⟨rfl, fun _ => show answeredState.rsp =
      { fault := 0#1, r1 := (lawfulResult (.rtz32Gm21 50#32)).2, r0 := (lawfulResult (.rtz32Gm21 50#32)).1 } by decide, rfl⟩

theorem witness_ResetLeavesNoResponse :
    State.inbox { answeredState with inbox := [.reset] } = .reset :: [] := by decide

theorem witness_IdleStepChangesNothing : State.reset.inbox = [] := by decide

end Sys2Proof.Machine.Tests
end

namespace Sys2Proof.Machine

/-! ## Exact division

What the round-trip law needs of a test is one half of its contract (R130): an accepted `n` is the quotient times
the divisor. Nothing is asked of a test that rejects. -/

/-- An accepting test answers the exact quotient, for every row and every `n` of the row's width. -/
def DividesExactly (T : Tester) : Prop :=
  ∀ (site : Site) (n : Nat), n < 2 ^ site.width.bits →
    (T site n).div = true → (T site n).q * site.divisor = n

theorem Site.divisor_pos (site : Site) : 0 < site.divisor := by cases site <;> decide

/-- The quotient of an accepted `n` still fits the width. -/
theorem DividesExactly.q_le {T : Tester} (hT : DividesExactly T) {site : Site} {n : Nat}
    (hn : n < 2 ^ site.width.bits) (hdiv : (T site n).div = true) : (T site n).q ≤ n :=
  calc (T site n).q ≤ (T site n).q * site.divisor := Nat.le_mul_of_pos_right _ site.divisor_pos
    _ = n := hT site n hn hdiv

/-! ### MOD -/

theorem testMod_dividesExactly : DividesExactly testMod := by
  intro site n _ hdiv
  rw [testMod_q]
  exact Nat.div_mul_cancel (Nat.dvd_of_mod_eq_zero ((testMod_div_iff site n).mp hdiv))

/-! ### The constants of ROT and SH (R132, R139) -/

theorem Site.divisor_eq_twoPower_mul_oddPart (site : Site) :
    site.divisor = 2 ^ twoPower site * oddPart site := by cases site <;> rfl

theorem oddPart_coprime_two_pow (site : Site) : (2 ^ twoPower site).Coprime (oddPart site) := by
  cases site <;> decide

theorem oddPart_mul_rotMultiplier (site : Site) :
    oddPart site * rotMultiplier site ≡ 1 [MOD 2 ^ site.width.bits] := by cases site <;> decide

theorem rotThreshold_mul_divisor_lt (site : Site) :
    rotThreshold site * site.divisor < 2 ^ site.width.bits := by cases site <;> decide

theorem rotThreshold_lt (site : Site) :
    rotThreshold site < 2 ^ (site.width.bits - twoPower site) := by cases site <;> decide

theorem oddPart_mul_shiftMultiplier (site : Site) :
    oddPart site * shiftMultiplier site ≡ 1 + 2 ^ site.width.bits [MOD 2 ^ shiftB site] := by
  cases site <;> decide

theorem pred_shiftThreshold_mul_oddPart_lt (site : Site) :
    (shiftThreshold site - 1) * oddPart site < 2 ^ site.width.bits := by cases site <;> decide

/-- Multiplying a truncated product by `c` undoes the multiplier up to `u`. -/
theorem mul_mod_modEq {m c M u : Nat} (n : Nat) (h : c * M ≡ u [MOD m]) : c * (n * M % m) ≡ n * u [MOD m] :=
  calc c * (n * M % m) ≡ c * (n * M) [MOD m] := (Nat.mod_modEq _ m).mul_left c
    _ = n * (c * M) := Nat.mul_left_comm c n M
    _ ≡ n * u [MOD m] := h.mul_left n

/-! ### ROT -/

/-- A rotated value below `2^(bits - r)` has had no low bits to rotate up. -/
theorem rotr_mul_of_lt {bits p r : Nat} (h : rotr bits p r < 2 ^ (bits - r)) : rotr bits p r * 2 ^ r = p := by
  have hlow : p % 2 ^ r = 0 := by
    by_contra hne
    have : 2 ^ (bits - r) ≤ p % 2 ^ r * 2 ^ (bits - r) := Nat.le_mul_of_pos_left _ (Nat.pos_of_ne_zero hne)
    unfold rotr at h
    omega
  have hrot : rotr bits p r = p / 2 ^ r := by simp [rotr, shr, hlow]
  rw [hrot]
  exact Nat.div_mul_cancel (Nat.dvd_of_mod_eq_zero hlow)

/-- R134: at most the threshold, the quotient times `d` does not wrap, and it is `n` modulo `2^W`. -/
theorem testRot_dividesExactly : DividesExactly testRot := by
  intro site n hn hdiv
  have hle := (testRot_div_iff site n).mp hdiv
  have hback : (testRot site n).q * 2 ^ twoPower site = n * rotMultiplier site % 2 ^ site.width.bits :=
    rotr_mul_of_lt (Nat.lt_of_le_of_lt hle (rotThreshold_lt site))
  have hlt : (testRot site n).q * site.divisor < 2 ^ site.width.bits :=
    Nat.lt_of_le_of_lt (Nat.mul_le_mul_right _ hle) (rotThreshold_mul_divisor_lt site)
  refine Nat.ModEq.eq_of_lt_of_lt ?_ hlt hn
  calc (testRot site n).q * site.divisor
      = oddPart site * (n * rotMultiplier site % 2 ^ site.width.bits) := by
        rw [site.divisor_eq_twoPower_mul_oddPart, ← Nat.mul_assoc, hback, Nat.mul_comm]
    _ ≡ n * 1 [MOD 2 ^ site.width.bits] := mul_mod_modEq n (oddPart_mul_rotMultiplier site)
    _ = n := Nat.mul_one n

/-! ### WM -/

/-- R135: `e = c·d - 2^F`, by how much the rounded-up multiplier exceeds `2^F / d`. -/
def wideExcess (site : Site) : Nat := wideMultiplier site * site.divisor - 2 ^ wideF site

theorem wideMultiplier_mul_divisor (site : Site) :
    wideMultiplier site * site.divisor = 2 ^ wideF site + wideExcess site := by cases site <;> decide

/-- R135's exactness condition `(Q + 1)·e < c`. -/
theorem wideExcess_mul_lt (site : Site) :
    ((2 ^ site.width.bits - 1) / site.divisor + 1) * wideExcess site < wideMultiplier site := by
  cases site <;> decide

/-- R137: the exact product splits at `2^F` into the floor quotient and a remainder of two parts. -/
theorem wide_product_split (site : Site) (n : Nat) :
    n * wideMultiplier site = 2 ^ wideF site * (n / site.divisor) +
      (n / site.divisor * wideExcess site + n % site.divisor * wideMultiplier site) :=
  calc n * wideMultiplier site
      = (site.divisor * (n / site.divisor) + n % site.divisor) * wideMultiplier site := by rw [Nat.div_add_mod]
    _ = n / site.divisor * (wideMultiplier site * site.divisor) + n % site.divisor * wideMultiplier site := by ring
    _ = _ := by rw [wideMultiplier_mul_divisor]; ring

/-- R137: the remainder stays below `2^F`. -/
theorem wide_remainder_lt (site : Site) {n : Nat} (hn : n < 2 ^ site.width.bits) :
    n / site.divisor * wideExcess site + n % site.divisor * wideMultiplier site < 2 ^ wideF site := by
  have hquot : (n / site.divisor + 1) * wideExcess site < wideMultiplier site :=
    Nat.lt_of_le_of_lt
      (Nat.mul_le_mul_right _ (Nat.add_le_add_right (Nat.div_le_div_right (Nat.le_sub_one_of_lt hn)) 1))
      (wideExcess_mul_lt site)
  have hrem : (n % site.divisor + 1) * wideMultiplier site ≤ 2 ^ wideF site + wideExcess site := by
    rw [← wideMultiplier_mul_divisor, Nat.mul_comm]
    exact Nat.mul_le_mul_left _ (Nat.mod_lt _ site.divisor_pos)
  rw [Nat.add_one_mul] at hquot hrem
  omega

/-- R137: the quotient of WM is the floor, whether the test accepts or not. -/
theorem testWide_q_eq_div (site : Site) {n : Nat} (hn : n < 2 ^ site.width.bits) :
    (testWide site n).q = n / site.divisor := by
  rw [testWide_q, wide_product_split, Nat.mul_add_div (Nat.two_pow_pos _),
    Nat.div_eq_of_lt (wide_remainder_lt site hn), Nat.add_zero]

/-- R137: a remainder of the division adds at least one multiplier, so the comparison rejects. -/
theorem mod_divisor_eq_zero_of_testWide {site : Site} {n : Nat} (hn : n < 2 ^ site.width.bits)
    (hdiv : (testWide site n).div = true) : n % site.divisor = 0 := by
  have hlt := (testWide_div_iff site n).mp hdiv
  rw [wide_product_split, Nat.mul_add_mod, Nat.mod_eq_of_lt (wide_remainder_lt site hn)] at hlt
  by_contra hne
  have := Nat.le_mul_of_pos_left (wideMultiplier site) (Nat.pos_of_ne_zero hne)
  omega

theorem testWide_dividesExactly : DividesExactly testWide := by
  intro site n hn hdiv
  rw [testWide_q_eq_div site hn]
  exact Nat.div_mul_cancel (Nat.dvd_of_mod_eq_zero (mod_divisor_eq_zero_of_testWide hn hdiv))

/-! ### SH -/

/-- R141: below the threshold, the odd part times the `B`-bit product is `n` itself. -/
theorem oddPart_mul_shiftProduct {site : Site} {n : Nat} (hn : n < 2 ^ site.width.bits)
    (hdiv : (testShift site n).div = true) : oddPart site * shiftProduct site n = n := by
  have hp : shiftProduct site n ≤ shiftThreshold site - 1 :=
    Nat.le_sub_one_of_lt ((testShift_div_iff site n).mp hdiv)
  have hlt : oddPart site * shiftProduct site n < 2 ^ site.width.bits := by
    rw [Nat.mul_comm]
    exact Nat.lt_of_le_of_lt (Nat.mul_le_mul_right _ hp) (pred_shiftThreshold_mul_oddPart_lt site)
  have hB : 2 ^ site.width.bits ∣ 2 ^ shiftB site := Nat.pow_dvd_pow 2 (Nat.le_add_right _ _)
  refine Nat.ModEq.eq_of_lt_of_lt ?_ hlt hn
  calc oddPart site * shiftProduct site n
      ≡ n * (1 + 2 ^ site.width.bits) [MOD 2 ^ site.width.bits] :=
        (mul_mod_modEq n (oddPart_mul_shiftMultiplier site)).of_dvd hB
    _ ≡ n [MOD 2 ^ site.width.bits] := by
        rw [Nat.mul_add, Nat.mul_one]
        exact Nat.add_mul_modulus_modEq_iff.mpr rfl

/-- R141: an accepted `n` is divisible by the power of two in `d`, because `n·2^W` vanishes modulo `2^B`. -/
theorem two_pow_dvd_of_testShift {site : Site} {n : Nat} (hn : n < 2 ^ site.width.bits)
    (hdiv : (testShift site n).div = true) : 2 ^ twoPower site ∣ n := by
  have hcong : n ≡ n + n * 2 ^ site.width.bits [MOD 2 ^ shiftB site] := by
    have h := mul_mod_modEq n (oddPart_mul_shiftMultiplier site)
    rwa [← shiftProduct_eq, oddPart_mul_shiftProduct hn hdiv, Nat.mul_add, Nat.mul_one] at h
  have hdvd := (Nat.modEq_iff_dvd' (Nat.le_add_right _ _)).mp hcong
  rw [Nat.add_sub_cancel_left, shiftB, Nat.pow_add, Nat.mul_comm n] at hdvd
  exact Nat.dvd_of_mul_dvd_mul_left (Nat.two_pow_pos _) hdvd

theorem testShift_dividesExactly : DividesExactly testShift := by
  intro site n hn hdiv
  have hprod := oddPart_mul_shiftProduct hn hdiv
  have hdvd : 2 ^ twoPower site ∣ shiftProduct site n :=
    (oddPart_coprime_two_pow site).dvd_of_dvd_mul_left ((two_pow_dvd_of_testShift hn hdiv).trans hprod.symm.dvd)
  calc (testShift site n).q * site.divisor
      = oddPart site * (shiftProduct site n / 2 ^ twoPower site * 2 ^ twoPower site) := by
        rw [testShift_q, site.divisor_eq_twoPower_mul_oddPart]; ring
    _ = n := by rw [Nat.div_mul_cancel hdvd, hprod]

/-- Every technique's test divides exactly where it accepts (R130, R134, R137, R141). -/
theorem tester_dividesExactly (t : Technique) : DividesExactly (tester t) := by
  cases t with
  | naive => exact testMod_dividesExactly
  | gm => exact testRot_dividesExactly
  | lemire => exact testWide_dividesExactly
  | ggm => exact testShift_dividesExactly

/-! ## The round-trip law of the schedules (R151) -/

/-- What is left of a round trip's `n` is at most `n`. -/
theorem le_of_mul_ten_pow_eq {t c n : Nat} (h : t * 10 ^ c = n) : t ≤ n :=
  h ▸ Nat.le_mul_of_pos_right t (Nat.pow_pos (by decide))

/-- Each accepted round moves `digits` tens from the value to the count. -/
theorem peelLoop_roundTrip {T : Tester} (hT : DividesExactly T) {site : Site} {digits : Nat}
    (hd : site.divisor = 10 ^ digits) (fuel : Nat) {n : Nat} (hn : n < 2 ^ site.width.bits) (s : Nat) :
    (peelLoop T site digits fuel n s).1 * 10 ^ (peelLoop T site digits fuel n s).2 = n * 10 ^ s := by
  induction fuel generalizing n s with
  | zero => simp
  | succ fuel ih =>
    cases hdiv : (T site n).div with
    | false => simp [peelLoop_reject, hdiv]
    | true =>
      rw [peelLoop_accept _ _ _ hdiv, ih (Nat.lt_of_le_of_lt (hT.q_le hn hdiv) hn)]
      calc (T site n).q * 10 ^ (s + digits)
          = (T site n).q * site.divisor * 10 ^ s := by rw [hd]; ring
        _ = n * 10 ^ s := by rw [hT site n hn hdiv]

theorem peel1_zero (T : Tester) (w : Width) : peel1 T w 0 = { trimmed := 0, removedCount := 0 } := rfl
theorem peel21_zero (T : Tester) (w : Width) : peel21 T w 0 = { trimmed := 0, removedCount := 0 } := rfl
theorem peel821_zero (T : Tester) : peel821 T 0 = { trimmed := 0, removedCount := 0 } := rfl

theorem peel1_of_ne_zero (T : Tester) (w : Width) {n : Nat} (hn : n ≠ 0) :
    peel1 T w n = { trimmed := (peelLoop T w.by10 1 w.fuel1 n 0).1
                    removedCount := (peelLoop T w.by10 1 w.fuel1 n 0).2 } := if_neg hn

theorem peel21_of_ne_zero (T : Tester) (w : Width) {n : Nat} (hn : n ≠ 0) :
    peel21 T w n =
      finisher T w (peelLoop T w.by100 2 w.fuel21 n 0).1 (peelLoop T w.by100 2 w.fuel21 n 0).2 := if_neg hn

theorem peel821_of_fastPath {T : Tester} {n : Nat} (hn : n ≠ 0) (h : fastPath T n = true) :
    peel821 T n = { trimmed := (peel21 T .w32 (T .w64d1e8 n).q).trimmed
                    removedCount := (peel21 T .w32 (T .w64d1e8 n).q).removedCount + 8 } := by
  simp [peel821, hn, h]

theorem peel821_of_not_fastPath {T : Tester} {n : Nat} (hn : n ≠ 0) (h : fastPath T n = false) :
    peel821 T n = peel21 T .w64 n := by
  simp [peel821, hn, h]

theorem peel1_roundTrip {T : Tester} (hT : DividesExactly T) (w : Width) : SatisfiesRoundTrip (peel1 T w) w := by
  intro n hn
  by_cases h0 : n = 0
  · simp [h0, peel1_zero]
  · rw [peel1_of_ne_zero T w h0]
    simpa using peelLoop_roundTrip hT (site := w.by10) (digits := 1) (by simp) w.fuel1 (by simpa using hn) 0

/-- The finisher keeps what the loop has: one more digit, or nothing. -/
theorem finisher_roundTrip {T : Tester} (hT : DividesExactly T) (w : Width) {n : Nat} (hn : n < 2 ^ w.bits) (s : Nat) :
    (finisher T w n s).trimmed * 10 ^ (finisher T w n s).removedCount = n * 10 ^ s := by
  cases hdiv : (T w.by10 n).div with
  | false => simp [finisher, hdiv]
  | true =>
    have hq : (T w.by10 n).q * 10 = n := by simpa using hT w.by10 n (by simpa using hn) hdiv
    calc (finisher T w n s).trimmed * 10 ^ (finisher T w n s).removedCount
        = (T w.by10 n).q * 10 ^ (s + 1) := by simp [finisher, hdiv]
      _ = (T w.by10 n).q * 10 * 10 ^ s := by ring
      _ = n * 10 ^ s := by rw [hq]

theorem peel21_roundTrip {T : Tester} (hT : DividesExactly T) (w : Width) : SatisfiesRoundTrip (peel21 T w) w := by
  intro n hn
  by_cases h0 : n = 0
  · simp [h0, peel21_zero]
  · have hloop := peelLoop_roundTrip hT (site := w.by100) (digits := 2) (by simp) w.fuel21 (by simpa using hn) 0
    rw [Nat.pow_zero, Nat.mul_one] at hloop
    rw [peel21_of_ne_zero T w h0,
      finisher_roundTrip hT w (Nat.lt_of_le_of_lt (le_of_mul_ten_pow_eq hloop) hn), hloop]

theorem peel821_roundTrip {T : Tester} (hT : DividesExactly T) : SatisfiesRoundTrip (peel821 T) .w64 := by
  intro n hn
  by_cases h0 : n = 0
  · simp [h0, peel821_zero]
  · cases hf : fastPath T n with
    | false => simpa [peel821_of_not_fastPath h0 hf] using peel21_roundTrip hT .w64 n hn
    | true =>
      obtain ⟨hdiv, hq⟩ := (fastPath_iff T n).mp hf
      have h21 := peel21_roundTrip hT .w32 _ (Nat.lt_of_le_sub_one (Nat.two_pow_pos 32) hq)
      rw [peel821_of_fastPath h0 hf, Nat.pow_add, ← Nat.mul_assoc, h21]
      exact hT .w64d1e8 n hn hdiv

theorem baseline_roundTrip (w : Width) : SatisfiesRoundTrip baseline w := fun n _ => by simp [baseline]

/-! ## The remover of a variant -/

/-- The function from `n` to a `TrimResult` that the remover of a variant and a width performs (R66). -/
def remover (w : Width) : Variant → Nat → TrimResult
  | .peel t .one => peel1 (tester t) w
  | .peel t .twoOne => peel21 (tester t) w
  | .peel t .eightTwoOne => peel821 (tester t)
  | .base => baseline

theorem exec_instr32 {n : Half} {v : Variant} {i : Instr} (h : instr32 n v = some i) (s : State) :
    exec i s = .next (s.respondTrim (remover .w32 v n.toNat)) := by
  rcases v with ⟨_ | _ | _ | _, _ | _ | _⟩ | _ <;> cases h <;> rfl

theorem exec_instr64 (n : Word) (v : Variant) (s : State) :
    exec (instr64 n v) s = .next (s.respondTrim (remover .w64 v n.toNat)) := by
  rcases v with ⟨_ | _ | _ | _, _ | _ | _⟩ | _ <;> rfl

theorem Width.two_pow_bits_le (w : Width) : 2 ^ w.bits ≤ 2 ^ Width.w64.bits := by cases w <;> decide

/-- R151 for every remover, the baselines too. -/
theorem remover_roundTrip (w : Width) (v : Variant) : SatisfiesRoundTrip (remover w v) w := by
  cases v with
  | base => exact baseline_roundTrip w
  | peel t g =>
    have hT := tester_dividesExactly t
    cases g with
    | one => exact peel1_roundTrip hT w
    | twoOne => exact peel21_roundTrip hT w
    | eightTwoOne => exact fun n hn => peel821_roundTrip hT n (Nat.lt_of_lt_of_le hn w.two_pow_bits_le)

/-- R122: every remover answers the zero pair for 0. -/
theorem remover_zero (w : Width) (v : Variant) : remover w v 0 = { trimmed := 0, removedCount := 0 } := by
  rcases v with ⟨t, _ | _ | _⟩ | _ <;> rfl

/-! ## Ranges (R124) -/

theorem remover_trimmed_le (w : Width) (v : Variant) {n : Nat} (hn : n < 2 ^ w.bits) :
    (remover w v n).trimmed ≤ n := le_of_mul_ten_pow_eq (remover_roundTrip w v n hn)

/-- A count's power of ten divides `n`, so it is at most `n` where `n` is not 0. -/
theorem remover_removedCount_le (w : Width) (v : Variant) {n k : Nat} (hn : n < 2 ^ w.bits)
    (hk : 2 ^ w.bits ≤ 10 ^ (k + 1)) :
    (remover w v n).removedCount ≤ k := by
  by_cases h0 : n = 0
  · simp [h0, remover_zero]
  · have hdvd : 10 ^ (remover w v n).removedCount ∣ n :=
      Dvd.intro_left _ (remover_roundTrip w v n hn)
    have hlt : 10 ^ (remover w v n).removedCount < 10 ^ (k + 1) :=
      Nat.lt_of_le_of_lt (Nat.le_of_dvd (Nat.pos_of_ne_zero h0) hdvd) (Nat.lt_of_lt_of_le hn hk)
    exact Nat.le_of_lt_succ ((Nat.pow_lt_pow_iff_right (by decide)).mp hlt)

/-! ## Decode of a defined code -/

/-- R67: width 32 has every remover but the 8-2-1 ones. -/
theorem instr32_isSome (n : Half) (v : Variant) : (instr32 n v).isSome = v.existsAt32 := by
  rcases v with ⟨_ | _ | _ | _, _ | _ | _⟩ | _ <;> rfl

theorem reservedOp_of_cls_one :
    ∀ op : Opcode, op ≠ 0x20#6 → opCls op = 1#1 → reservedOp op = true := by decide

theorem reservedOp_of_variantOf_none :
    ∀ op : Opcode, opCls op ≠ 1#1 → variantOf (opG op) (opT op) = none → reservedOp op = true := by decide

theorem reservedOp_of_not_existsAt32 :
    ∀ op : Opcode, opCls op ≠ 1#1 → opW op = 0#1 →
      (variantOf (opG op) (opT op)).map Variant.existsAt32 = some false → reservedOp op = true := by decide

theorem op_lt_0x10_of_width_32 : ∀ op : Opcode, opCls op ≠ 1#1 → opW op = 0#1 → op.toNat < 0x10 := by decide

theorem op_range_of_width_64 :
    ∀ op : Opcode, opCls op ≠ 1#1 → opW op ≠ 0#1 → 0x10 ≤ op.toNat ∧ op.toNat < 0x20 := by decide

/-- R65, R66: what a defined code decodes to, by the range it lies in: a 32-bit remover, a 64-bit one, or `WMUL`. -/
theorem decode_of_defined {r : Request} (h : reservedOp r.op = false) :
    (r.op.toNat < 0x10 ∧ ∃ v i, instr32 (r.a.extractLsb' 0 32) v = some i ∧ decode r = .instr i) ∨
    ((0x10 ≤ r.op.toNat ∧ r.op.toNat < 0x20) ∧ ∃ v, decode r = .instr (instr64 r.a v)) ∨
    (r.op = 0x20#6 ∧ decode r = .instr (.wmul r.a r.b)) := by
  have hdef : reservedOp r.op ≠ true := by simp [h]
  by_cases h20 : r.op = 0x20#6
  · exact .inr (.inr ⟨h20, by simp [decode, h20]⟩)
  have hcls : opCls r.op ≠ 1#1 := fun hc => hdef (reservedOp_of_cls_one _ h20 hc)
  cases hv : variantOf (opG r.op) (opT r.op) with
  | none => exact absurd (reservedOp_of_variantOf_none _ hcls hv) hdef
  | some v =>
    by_cases hw : opW r.op = 0#1
    · cases hi : instr32 (r.a.extractLsb' 0 32) v with
      | none =>
        have hv32 : v.existsAt32 = false := by rw [← instr32_isSome (r.a.extractLsb' 0 32), hi]; rfl
        exact absurd (reservedOp_of_not_existsAt32 _ hcls hw (by simp [hv, hv32])) hdef
      | some i =>
        exact .inl ⟨op_lt_0x10_of_width_32 _ hcls hw, v, i, hi, by simp [decode, h20, hcls, hv, hw, hi]⟩
    · exact .inr (.inl ⟨op_range_of_width_64 _ hcls hw, v, by simp [decode, h20, hcls, hv, hw]⟩)

theorem exists_decode_instr_of_defined {r : Request} (h : reservedOp r.op = false) :
    ∃ i, decode r = .instr i := by
  obtain ⟨-, -, i, -, hd⟩ | ⟨-, v, hd⟩ | ⟨-, hd⟩ := decode_of_defined h
  · exact ⟨i, hd⟩
  · exact ⟨_, hd⟩
  · exact ⟨_, hd⟩

/-! ## The step, by what it finds -/

theorem step_idle {s : State} (h : s.inbox = []) : step s = .next s := by
  rw [step, takeEvent_nil h]

theorem step_instr {s : State} {r : Request} {rest : List HostEvent} {i : Instr}
    (h : s.inbox = .request r :: rest) (hd : decode r = .instr i) : step s = exec i (s.take r rest) := by
  simp [step, takeEvent_request h, hd]

theorem step_reserved {s : State} {r : Request} {rest : List HostEvent} {why : Reserved}
    (h : s.inbox = .request r :: rest) (hd : decode r = .reserved why) :
    step s = .next (s.take r rest).raiseIllegalOperation := by
  simp [step, takeEvent_request h, hd]

/-- R20: the two results of an operation are the same whatever state it is performed in. -/
theorem exec_responds_uniformly (i : Instr) : ∃ r0 r1 : Word, ∀ s : State, exec i s = .next (s.respond r0 r1) := by
  cases i <;> exact ⟨_, _, fun _ => rfl⟩

/-! ## The forms of the results -/

theorem zext64_toNat_le (k : Nat) : (zext64 k).toNat ≤ k := by
  rw [zext64, BitVec.toNat_ofNat]
  exact Nat.mod_le _ _

/-- R22: a value below `2^32` leaves `r0[63:32]` 0. -/
theorem zext64_high_half {k : Nat} (h : k < 2 ^ 32) : (zext64 k).extractLsb' 32 32 = 0#32 := by
  apply BitVec.eq_of_toNat_eq
  rw [BitVec.extractLsb'_toNat, Nat.shiftRight_eq_div_pow,
    Nat.div_eq_of_lt (Nat.lt_of_le_of_lt (zext64_toNat_le k) h)]
  rfl

/-- R100: the high half of a product of two words is at most `2^64 - 2`. -/
theorem wmul_high_le (x y : Word) : (wmul x y).1.toNat ≤ 2 ^ 64 - 2 := by
  have hprod : x.toNat * y.toNat ≤ (2 ^ 64 - 1) * (2 ^ 64 - 1) :=
    Nat.mul_le_mul (Nat.le_sub_one_of_lt x.isLt) (Nat.le_sub_one_of_lt y.isLt)
  calc (wmul x y).1.toNat ≤ x.toNat * y.toNat / 2 ^ 64 := zext64_toNat_le _
    _ ≤ (2 ^ 64 - 1) * (2 ^ 64 - 1) / 2 ^ 64 := Nat.div_le_div_right hprod
    _ = 2 ^ 64 - 2 := by norm_num

/-- The results of a 32-bit remover (R22, R124). -/
theorem remover32_forms (v : Variant) (n : Half) :
    (zext64 (remover .w32 v n.toNat).trimmed).extractLsb' 32 32 = 0#32 ∧
      (zext64 (remover .w32 v n.toNat).removedCount).toNat ≤ 9 :=
  ⟨zext64_high_half (Nat.lt_of_le_of_lt (remover_trimmed_le .w32 v n.isLt) n.isLt),
    (zext64_toNat_le _).trans (remover_removedCount_le .w32 v n.isLt (by decide))⟩

/-- The count of a 64-bit remover (R124). -/
theorem remover64_count_le (v : Variant) (n : Word) :
    (zext64 (remover .w64 v n.toNat).removedCount).toNat ≤ 19 :=
  (zext64_toNat_le _).trans (remover_removedCount_le .w64 v n.isLt (by decide))

/-! ## The statements -/

/-- Settles O39, by the three ranges of a defined code: the fault bit is 0 because an operation answers, the bounds are
R124's for the remover of the range and R100's for `WMUL`. -/
theorem responseFormsOfRemovers : Obligations.ResponseFormsOfRemovers := by
  intro s r rest hs hdef
  obtain ⟨hop, v, i, hi, hd⟩ | ⟨hop, v, hd⟩ | ⟨hop, hd⟩ := decode_of_defined hdef
  · obtain ⟨hhigh, hcount⟩ := remover32_forms v (r.a.extractLsb' 0 32)
    refine ⟨_, (step_instr hs hd).trans (exec_instr32 hi _), rfl, fun _ => ⟨hhigh, hcount⟩,
      fun _ => hcount.trans (by decide), fun h20 => ?_⟩
    exact absurd hop (by simp [h20])
  · have hcount := remover64_count_le v r.a
    refine ⟨_, (step_instr hs hd).trans (exec_instr64 r.a v _), rfl, fun hlt => ?_, fun _ => hcount,
      fun h20 => ?_⟩
    · omega
    · exact absurd hop (by simp [h20])
  · refine ⟨_, step_instr hs hd, rfl, fun hlt => ?_, fun hlt => ?_, fun _ => wmul_high_le r.a r.b⟩
    · exact absurd hlt (by simp [hop])
    · exact absurd hlt (by simp [hop])

/-- Settles O37, by what the request decodes to: an operation's results do not read the state, and a reserved code gives
the same fault bit, whatever its free values. -/
theorem responseDependsOnTheRequestAlone : Obligations.ResponseDependsOnTheRequestAlone := by
  intro s₁ s₂ r rest₁ rest₂ h₁ h₂
  cases hd : decode r with
  | instr i =>
    obtain ⟨r0, r1, hexec⟩ := exec_responds_uniformly i
    exact ⟨_, _, (step_instr h₁ hd).trans (hexec _), (step_instr h₂ hd).trans (hexec _), rfl, fun _ => rfl⟩
  | reserved why =>
    refine ⟨_, _, step_reserved h₁ hd, step_reserved h₂ hd, rfl, fun hdef => ?_⟩
    obtain ⟨i, hi⟩ := exists_decode_instr_of_defined hdef
    rw [hd] at hi
    cases hi

end Sys2Proof.Machine

namespace Sys2Proof

/-! ## The canonical words (R23) -/

/-- The three fields of a word that is written as a top field and two words of 64 bits. -/
theorem extract_fields_of_append {m : Nat} (top : BitVec m) (hi lo : Word) :
    (top ++ hi ++ lo).extractLsb' 128 m = top ∧ (top ++ hi ++ lo).extractLsb' 64 64 = hi ∧
      (top ++ hi ++ lo).extractLsb' 0 64 = lo := by
  refine ⟨?_, ?_, BitVec.extractLsb'_append_eq_right⟩
  · rw [BitVec.extractLsb'_append_eq_of_le (by decide)]
    exact BitVec.extractLsb'_append_eq_left
  · rw [BitVec.extractLsb'_append_eq_of_le (by decide)]
    exact BitVec.extractLsb'_append_eq_right

theorem Request.word_fields (r : Request) :
    r.word.extractLsb' 128 6 = r.op ∧ r.word.extractLsb' 64 64 = r.a ∧ r.word.extractLsb' 0 64 = r.b :=
  extract_fields_of_append r.op r.a r.b

theorem Machine.Response.word_fields (p : Machine.Response) :
    p.word.extractLsb' 128 1 = p.fault ∧ p.word.extractLsb' 64 64 = p.r1 ∧ p.word.extractLsb' 0 64 = p.r0 :=
  extract_fields_of_append p.fault p.r1 p.r0

@[simp] theorem Request.ofWord_word (r : Request) : Request.ofWord r.word = r := by
  obtain ⟨hop, ha, hb⟩ := r.word_fields
  rw [Request.ofWord, hop, ha, hb]

/-- The three fields cover the word. -/
@[simp] theorem Request.word_ofWord (w : BitVec 134) : (Request.ofWord w).word = w := by
  have htop : w.extractLsb' 128 6 ++ w.extractLsb' 64 64 = w.extractLsb' 64 70 :=
    BitVec.extractLsb'_append_extractLsb'_eq_extractLsb' rfl
  calc (Request.ofWord w).word = w.extractLsb' 64 70 ++ w.extractLsb' 0 64 := congrArg (· ++ w.extractLsb' 0 64) htop
    _ = w := BitVec.extractLsb'_append_extractLsb'

/-- Settles O27, by the extraction of the fields of an append. -/
theorem canonicalWordsHoldTheirFields : Obligations.CanonicalWordsHoldTheirFields := by
  refine ⟨fun r => ?_, Request.word_ofWord, Machine.Response.word_fields⟩
  obtain ⟨hop, ha, hb⟩ := r.word_fields
  exact ⟨hop, ha, hb, r.ofWord_word⟩

namespace Machine

/-! ## Reset and idle -/

/-- The invariant speaks of no state whose response no step has produced (R31, V2). -/
theorem State.inv_of_not_answered {s : State} (h : s.answered = false) : s.Inv := by
  simp [State.Inv, h]

/-- Settles O43: the reset state has produced no response, so the invariant asks nothing of it. -/
theorem resetHasNoResponseYet : Obligations.ResetHasNoResponseYet :=
  ⟨State.inv_of_not_answered rfl, rfl, rfl⟩

/-- Settles O46, by what a step finds when nothing is offered. -/
theorem idleStepChangesNothing : Obligations.IdleStepChangesNothing := fun _ h => step_idle h

end Machine

end Sys2Proof

namespace Sys2Proof.Machine

/-! ## The test contract (R130)

The other half of the contract: a test rejects no multiple of its divisor. -/

/-- A test accepts every multiple of its divisor, for every row and every `n` of the row's width. -/
def AcceptsMultiples (T : Tester) : Prop :=
  ∀ (site : Site) (n : Nat), n < 2 ^ site.width.bits → n % site.divisor = 0 → (T site n).div = true

theorem meetsContract_iff (T : Tester) : MeetsContract T ↔ DividesExactly T ∧ AcceptsMultiples T := by
  constructor
  · refine fun hT => ⟨fun site n hn hdiv => ?_, fun site n hn => (hT site n hn).1.mpr⟩
    obtain ⟨hiff, hq⟩ := hT site n hn
    rw [hq hdiv]
    exact Nat.div_mul_cancel (Nat.dvd_of_mod_eq_zero (hiff.mp hdiv))
  · rintro ⟨hexact, haccept⟩ site n hn
    refine ⟨⟨fun hdiv => ?_, haccept site n hn⟩, fun hdiv => ?_⟩
    · exact Nat.mod_eq_zero_of_dvd (Dvd.intro_left _ (hexact site n hn hdiv))
    · exact Nat.eq_div_of_mul_eq_left site.divisor_pos.ne' (hexact site n hn hdiv)

theorem testMod_acceptsMultiples : AcceptsMultiples testMod := fun site n _ => (testMod_div_iff site n).mpr

/-- R137: what the rounding of the multiplier adds to a quotient stays below the multiplier. -/
theorem div_mul_wideExcess_lt (site : Site) {n : Nat} (hn : n < 2 ^ site.width.bits) :
    n / site.divisor * wideExcess site < wideMultiplier site :=
  calc n / site.divisor * wideExcess site
      ≤ ((2 ^ site.width.bits - 1) / site.divisor + 1) * wideExcess site :=
        Nat.mul_le_mul_right _ (Nat.le_succ_of_le (Nat.div_le_div_right (Nat.le_sub_one_of_lt hn)))
    _ < wideMultiplier site := wideExcess_mul_lt site

theorem testWide_acceptsMultiples : AcceptsMultiples testWide := by
  intro site n hn hmod
  rw [testWide_div_iff, wide_product_split, Nat.mul_add_mod, Nat.mod_eq_of_lt (wide_remainder_lt site hn), hmod,
    Nat.zero_mul, Nat.add_zero]
  exact div_mul_wideExcess_lt site hn

/-- Of a multiple of the divisor, a multiplier takes away the odd part and leaves the power of two. -/
theorem multiple_mul_modEq {site : Site} {n m M u : Nat} (hmod : n % site.divisor = 0)
    (h : oddPart site * M ≡ u [MOD m]) : n * M ≡ 2 ^ twoPower site * (n / site.divisor) * u [MOD m] :=
  calc n * M = site.divisor * (n / site.divisor) * M := by
        rw [Nat.mul_div_cancel' (Nat.dvd_of_mod_eq_zero hmod)]
    _ = 2 ^ twoPower site * oddPart site * (n / site.divisor) * M := by
        rw [← site.divisor_eq_twoPower_mul_oddPart]
    _ = 2 ^ twoPower site * (n / site.divisor) * (oddPart site * M) := by ring
    _ ≡ 2 ^ twoPower site * (n / site.divisor) * u [MOD m] := h.mul_left _

theorem oddPart_pos (site : Site) : 0 < oddPart site := by cases site <;> decide

theorem two_pow_mul_div_le (site : Site) (n : Nat) : 2 ^ twoPower site * (n / site.divisor) ≤ n :=
  calc 2 ^ twoPower site * (n / site.divisor)
      ≤ 2 ^ twoPower site * oddPart site * (n / site.divisor) :=
        Nat.mul_le_mul_right _ (Nat.le_mul_of_pos_right _ (oddPart_pos site))
    _ = site.divisor * (n / site.divisor) := by rw [← site.divisor_eq_twoPower_mul_oddPart]
    _ ≤ n := Nat.mul_div_le n site.divisor

theorem rotThreshold_eq (site : Site) : rotThreshold site = (2 ^ site.width.bits - 1) / site.divisor := by
  cases site <;> decide

theorem shiftThreshold_eq (site : Site) :
    shiftThreshold site = 2 ^ twoPower site * ((2 ^ site.width.bits - 1) / site.divisor) + 1 := by
  cases site <;> decide

/-- Rotating a value whose low bits are 0 shifts it. -/
theorem rotr_two_pow_mul (bits r q : Nat) : rotr bits (2 ^ r * q) r = q := by simp [rotr, shr]

/-- R134: of a multiple of `d`, rotate-magic computes the quotient, which the threshold bounds. -/
theorem testRot_acceptsMultiples : AcceptsMultiples testRot := by
  intro site n hn hmod
  have hprod : trunc site.width.bits (n * rotMultiplier site) = 2 ^ twoPower site * (n / site.divisor) := by
    have hcong := multiple_mul_modEq hmod (oddPart_mul_rotMultiplier site)
    rw [Nat.mul_one] at hcong
    exact Eq.trans hcong (Nat.mod_eq_of_lt (Nat.lt_of_le_of_lt (two_pow_mul_div_le site n) hn))
  rw [testRot_div_iff, testRot_q, hprod, rotr_two_pow_mul, rotThreshold_eq]
  exact Nat.div_le_div_right (Nat.le_sub_one_of_lt hn)

/-- R141: of a multiple of `d`, the `B`-bit product is the quotient shifted by `r`, because `2^r·2^W` vanishes. -/
theorem testShift_acceptsMultiples : AcceptsMultiples testShift := by
  intro site n hn hmod
  have hcong : n * shiftMultiplier site ≡ 2 ^ twoPower site * (n / site.divisor) [MOD 2 ^ shiftB site] :=
    calc n * shiftMultiplier site
        ≡ 2 ^ twoPower site * (n / site.divisor) * (1 + 2 ^ site.width.bits) [MOD 2 ^ shiftB site] :=
          multiple_mul_modEq hmod (oddPart_mul_shiftMultiplier site)
      _ = 2 ^ twoPower site * (n / site.divisor) + n / site.divisor * 2 ^ shiftB site := by
          rw [shiftB, Nat.pow_add]; ring
      _ ≡ 2 ^ twoPower site * (n / site.divisor) [MOD 2 ^ shiftB site] := Nat.add_mul_modulus_modEq_iff.mpr rfl
  have hlt : 2 ^ twoPower site * (n / site.divisor) < 2 ^ shiftB site :=
    calc 2 ^ twoPower site * (n / site.divisor) ≤ n := two_pow_mul_div_le site n
      _ < 2 ^ site.width.bits := hn
      _ ≤ 2 ^ shiftB site := Nat.pow_le_pow_right (by decide) (Nat.le_add_right _ _)
  rw [testShift_div_iff, shiftProduct_eq, Eq.trans hcong (Nat.mod_eq_of_lt hlt), shiftThreshold_eq]
  exact Nat.lt_succ_of_le (Nat.mul_le_mul_left _ (Nat.div_le_div_right (Nat.le_sub_one_of_lt hn)))

theorem tester_acceptsMultiples (t : Technique) : AcceptsMultiples (tester t) := by
  cases t with
  | naive => exact testMod_acceptsMultiples
  | gm => exact testRot_acceptsMultiples
  | lemire => exact testWide_acceptsMultiples
  | ggm => exact testShift_acceptsMultiples

theorem tester_meetsContract (t : Technique) : MeetsContract (tester t) :=
  (meetsContract_iff _).mpr ⟨tester_dividesExactly t, tester_acceptsMultiples t⟩

theorem MeetsContract.dividesExactly {T : Tester} (hT : MeetsContract T) : DividesExactly T :=
  ((meetsContract_iff T).mp hT).1

theorem MeetsContract.acceptsMultiples {T : Tester} (hT : MeetsContract T) : AcceptsMultiples T :=
  ((meetsContract_iff T).mp hT).2

/-! ## The maximality law of the schedules (R152) -/

/-- The quotient of an accepted `n > 0` is not 0. -/
theorem DividesExactly.q_pos {T : Tester} (hT : DividesExactly T) {site : Site} {n : Nat}
    (hn : n < 2 ^ site.width.bits) (hpos : 0 < n) (hdiv : (T site n).div = true) : 0 < (T site n).q :=
  Nat.pos_of_mul_pos_right (by rwa [hT site n hn hdiv])

/-- The value that a rejecting test leaves is no multiple of its divisor. -/
theorem AcceptsMultiples.mod_ne_zero {T : Tester} (hT : AcceptsMultiples T) {site : Site} {n : Nat}
    (hn : n < 2 ^ site.width.bits) (hdiv : (T site n).div = false) : n % site.divisor ≠ 0 :=
  fun hmod => by simp [hT site n hn hmod] at hdiv

/-- R148: with the divisor's power of the fuel above `n`, the loop ends by a failing test, so it leaves no multiple. -/
theorem peelLoop_mod_ne_zero {T : Tester} (hT : MeetsContract T) {site : Site} (digits fuel : Nat) {n : Nat}
    (hn : n < 2 ^ site.width.bits) (hpos : 0 < n) (hfuel : n < site.divisor ^ fuel) (s : Nat) :
    (peelLoop T site digits fuel n s).1 % site.divisor ≠ 0 := by
  induction fuel generalizing n s with
  | zero => exact absurd hpos (by simpa using hfuel)
  | succ fuel ih =>
    cases hdiv : (T site n).div with
    | false =>
      rw [peelLoop_reject _ _ _ hdiv]
      exact hT.acceptsMultiples.mod_ne_zero hn hdiv
    | true =>
      rw [peelLoop_accept _ _ _ hdiv]
      have hexact := hT.dividesExactly
      refine ih (Nat.lt_of_le_of_lt (hexact.q_le hn hdiv) hn) (hexact.q_pos hn hpos hdiv) ?_ _
      rw [← hexact site n hn hdiv, Nat.pow_succ] at hfuel
      exact Nat.lt_of_mul_lt_mul_right hfuel

theorem Width.lt_by10_pow_fuel1 {w : Width} {n : Nat} (hn : n < 2 ^ w.bits) : n < w.by10.divisor ^ w.fuel1 :=
  Nat.lt_of_lt_of_le hn (by cases w <;> decide)

theorem Width.lt_by100_pow_fuel21 {w : Width} {n : Nat} (hn : n < 2 ^ w.bits) : n < w.by100.divisor ^ w.fuel21 :=
  Nat.lt_of_lt_of_le hn (by cases w <;> decide)

theorem peel1_maximal {T : Tester} (hT : MeetsContract T) (w : Width) : SatisfiesMaximality (peel1 T w) w := by
  intro n hpos hn
  rw [peel1_of_ne_zero T w hpos.ne']
  simpa using peelLoop_mod_ne_zero hT 1 w.fuel1 (site := w.by10) (by simpa using hn) hpos
    (Width.lt_by10_pow_fuel1 hn) 0

/-- After the loop by 100 at most one zero is left, and the finisher takes it. -/
theorem finisher_trimmed_mod_ten_ne_zero {T : Tester} (hT : MeetsContract T) (w : Width) {n : Nat}
    (hn : n < 2 ^ w.bits) (h100 : n % 100 ≠ 0) (s : Nat) : (finisher T w n s).trimmed % 10 ≠ 0 := by
  have hn10 : n < 2 ^ w.by10.width.bits := by simpa using hn
  cases hdiv : (T w.by10 n).div with
  | false => simpa [finisher, hdiv] using hT.acceptsMultiples.mod_ne_zero hn10 hdiv
  | true =>
    have hq : (T w.by10 n).q * 10 = n := by simpa using hT.dividesExactly w.by10 n hn10 hdiv
    have htrim : (finisher T w n s).trimmed = (T w.by10 n).q := by simp [finisher, hdiv]
    omega

theorem peel21_maximal {T : Tester} (hT : MeetsContract T) (w : Width) : SatisfiesMaximality (peel21 T w) w := by
  intro n hpos hn
  have hn100 : n < 2 ^ w.by100.width.bits := by simpa using hn
  have hloop := peelLoop_roundTrip hT.dividesExactly (site := w.by100) (digits := 2) (by simp) w.fuel21 hn100 0
  rw [Nat.pow_zero, Nat.mul_one] at hloop
  rw [peel21_of_ne_zero T w hpos.ne']
  refine finisher_trimmed_mod_ten_ne_zero hT w (Nat.lt_of_le_of_lt (le_of_mul_ten_pow_eq hloop) hn) ?_ _
  simpa using peelLoop_mod_ne_zero hT 2 w.fuel21 hn100 hpos (Width.lt_by100_pow_fuel21 hn) 0

theorem peel821_maximal {T : Tester} (hT : MeetsContract T) : SatisfiesMaximality (peel821 T) .w64 := by
  intro n hpos hn
  cases hf : fastPath T n with
  | false => simpa [peel821_of_not_fastPath hpos.ne' hf] using peel21_maximal hT .w64 n hpos hn
  | true =>
    obtain ⟨hdiv, hq⟩ := (fastPath_iff T n).mp hf
    rw [peel821_of_fastPath hpos.ne' hf]
    exact peel21_maximal hT .w32 _ (hT.dividesExactly.q_pos hn hpos hdiv)
      (Nat.lt_of_le_sub_one (Nat.two_pow_pos 32) hq)

/-! ## The laws determine `rtz` (R121, R149) -/

@[simp] theorem rtz_zero : rtz 0 = { trimmed := 0, removedCount := 0 } := rfl

/-- A power of ten that divides `t · 10^c` is at most `10^c`, where `t` ends in no zero. -/
theorem le_of_ten_pow_dvd {t c k : Nat} (ht : t % 10 ≠ 0) (h : 10 ^ k ∣ t * 10 ^ c) : k ≤ c := by
  by_contra hlt
  have hsucc : 10 ^ c * 10 ∣ 10 ^ c * t := by
    rw [← Nat.pow_succ, Nat.mul_comm _ t]
    exact (Nat.pow_dvd_pow 10 (Nat.lt_of_not_le hlt)).trans h
  exact ht (Nat.mod_eq_zero_of_dvd (Nat.dvd_of_mul_dvd_mul_left (Nat.pow_pos (by decide)) hsucc))

/-- R121: a `TrimResult` of `n > 0` that keeps the product and leaves no zero digit is `rtz(n)`. -/
theorem rtz_eq_of_roundTrip_of_maximal {n : Nat} {p : TrimResult} (hpos : 0 < n)
    (hprod : p.trimmed * 10 ^ p.removedCount = n) (hmax : p.trimmed % 10 ≠ 0) : rtz n = p := by
  have hcount : Nat.findGreatest (fun k => n % 10 ^ k = 0) n = p.removedCount := by
    refine Nat.findGreatest_eq_iff.mpr ⟨?_, fun _ => ?_, fun k hlt _ hk => ?_⟩
    · calc p.removedCount ≤ 10 ^ p.removedCount := (Nat.lt_pow_self (by decide)).le
        _ ≤ n := Nat.le_of_dvd hpos (Dvd.intro_left _ hprod)
    · exact Nat.mod_eq_zero_of_dvd (Dvd.intro_left _ hprod)
    · rw [← hprod] at hk
      exact absurd (le_of_ten_pow_dvd hmax (Nat.dvd_of_mod_eq_zero hk)) (Nat.not_le_of_lt hlt)
  have htrim : n / 10 ^ p.removedCount = p.trimmed :=
    Nat.div_eq_of_eq_mul_left (Nat.pow_pos (by decide)) hprod.symm
  simp only [rtz, if_neg hpos.ne', hcount, htrim]

/-- R121, R122: a function that keeps both laws and answers the zero pair for 0 is `rtz`. -/
theorem eq_rtz_of_laws {f : Nat → TrimResult} {w : Width} (hround : SatisfiesRoundTrip f w)
    (hmax : SatisfiesMaximality f w) (hzero : f 0 = { trimmed := 0, removedCount := 0 }) {n : Nat}
    (hn : n < 2 ^ w.bits) : f n = rtz n := by
  rcases Nat.eq_zero_or_pos n with rfl | hpos
  · rw [hzero, rtz_zero]
  · exact (rtz_eq_of_roundTrip_of_maximal hpos (hround n hn) (hmax n hpos hn)).symm

theorem peel1_eq_rtz {T : Tester} (hT : MeetsContract T) (w : Width) {n : Nat} (hn : n < 2 ^ w.bits) :
    peel1 T w n = rtz n :=
  eq_rtz_of_laws (peel1_roundTrip hT.dividesExactly w) (peel1_maximal hT w) (peel1_zero T w) hn

theorem peel21_eq_rtz {T : Tester} (hT : MeetsContract T) (w : Width) {n : Nat} (hn : n < 2 ^ w.bits) :
    peel21 T w n = rtz n :=
  eq_rtz_of_laws (peel21_roundTrip hT.dividesExactly w) (peel21_maximal hT w) (peel21_zero T w) hn

theorem peel821_eq_rtz {T : Tester} (hT : MeetsContract T) {n : Nat} (hn : n < 2 ^ 64) : peel821 T n = rtz n :=
  eq_rtz_of_laws (w := .w64) (peel821_roundTrip hT.dividesExactly) (peel821_maximal hT) (peel821_zero T) hn

/-- R150: every remover but the baselines computes `rtz`. -/
theorem remover_peel_eq_rtz (w : Width) (t : Technique) (g : Granularity) {n : Nat} (hn : n < 2 ^ w.bits) :
    remover w (.peel t g) n = rtz n := by
  have hT := tester_meetsContract t
  cases g with
  | one => exact peel1_eq_rtz hT w hn
  | twoOne => exact peel21_eq_rtz hT w hn
  | eightTwoOne => exact peel821_eq_rtz hT (Nat.lt_of_lt_of_le hn w.two_pow_bits_le)

/-! ## Every operation gives its lawful result -/

/-- The lawful result of a 32-bit remover is what it performs: `rtz(n)`, or `n` for the baseline. -/
theorem lawfulResult_instr32 {n : Half} {v : Variant} {i : Instr} (h : instr32 n v = some i) :
    lawfulResult i = trimWords (remover .w32 v n.toNat) := by
  cases v with
  | base => cases h; exact congrArg (·, 0#64) (BitVec.eq_of_toNat_eq (by simp [remover, baseline]))
  | peel t g =>
    rw [remover_peel_eq_rtz .w32 t g n.isLt]
    cases g <;> cases t <;> cases h <;> rfl

/-- The lawful result of a 64-bit remover is what it performs: `rtz(n)`, or `n` for the baseline. -/
theorem lawfulResult_instr64 (n : Word) (v : Variant) :
    lawfulResult (instr64 n v) = trimWords (remover .w64 v n.toNat) := by
  cases v with
  | base => exact congrArg (·, 0#64) (BitVec.ofNat_toNat 64 n).symm
  | peel t g =>
    rw [remover_peel_eq_rtz .w64 t g n.isLt]
    cases g <;> cases t <;> rfl

/-- R100: `WMUL` gives the low and the high half of the exact product. -/
theorem lawfulResult_wmul (x y : Word) : lawfulResult (.wmul x y) = ((wmul x y).2, (wmul x y).1) :=
  congrArg (·, (wmul x y).1) (BitVec.eq_of_toNat_eq (by simp [zext64, wmul, wmulNat, trunc]))

/-- The next state of an instruction, by the laws alone: its lawful result in the response fields, and no fault. -/
def GivesLawfulResult (i : Instr) : Prop :=
  ∀ s : State, exec i s = .next (s.respond (lawfulResult i).1 (lawfulResult i).2)

theorem givesLawfulResult_instr32 {n : Half} {v : Variant} {i : Instr} (h : instr32 n v = some i) :
    GivesLawfulResult i := fun s => by rw [exec_instr32 h, lawfulResult_instr32 h]; rfl

theorem givesLawfulResult_instr64 (n : Word) (v : Variant) : GivesLawfulResult (instr64 n v) := fun s => by
  rw [exec_instr64, lawfulResult_instr64]; rfl

theorem givesLawfulResult_wmul (x y : Word) : GivesLawfulResult (.wmul x y) := fun s => by
  rw [lawfulResult_wmul]; rfl

/-- R65: a request that decodes to an instruction decodes to `WMUL`, a 32-bit remover, or a 64-bit one. -/
theorem decode_instr_forms {r : Request} {i : Instr} (hd : decode r = .instr i) :
    i = .wmul r.a r.b ∨ (∃ v, instr32 (r.a.extractLsb' 0 32) v = some i) ∨ ∃ v, i = instr64 r.a v := by
  unfold decode at hd
  split at hd
  · exact .inl (Decoded.instr.inj hd).symm
  split at hd
  · cases hd
  split at hd
  · split at hd <;> cases hd
  next v _ =>
    split at hd
    · split at hd
      · cases hd
      next _ hi => exact .inr (.inl ⟨v, hi.trans (congrArg some (Decoded.instr.inj hd))⟩)
    · exact .inr (.inr ⟨v, (Decoded.instr.inj hd).symm⟩)

theorem givesLawfulResult_of_decode {r : Request} {i : Instr} (hd : decode r = .instr i) : GivesLawfulResult i := by
  obtain rfl | ⟨v, hv⟩ | ⟨v, rfl⟩ := decode_instr_forms hd
  · exact givesLawfulResult_wmul r.a r.b
  · exact givesLawfulResult_instr32 hv
  · exact givesLawfulResult_instr64 r.a v

/-! ## A step that takes a request (R44) -/

theorem respondsTo_instr {r : Request} {i : Instr} (hd : decode r = .instr i) (p : Response) :
    RespondsTo r p ↔ p = { fault := 0#1, r1 := (lawfulResult i).2, r0 := (lawfulResult i).1 } := by
  rw [RespondsTo, hd]

theorem respondsTo_reserved {r : Request} {why : Reserved} (hd : decode r = .reserved why) (p : Response) :
    RespondsTo r p ↔ p.fault = 1#1 := by
  rw [RespondsTo, hd]

/-- R44: a step that finds a request takes it whole and off the list, and answers it rightly. -/
theorem step_request {s : State} {r : Request} {rest : List HostEvent} (h : s.inbox = .request r :: rest) :
    ∃ t, step s = .next t ∧ t.req = r ∧ t.inbox = rest ∧ t.answered = true ∧ RespondsTo r t.rsp := by
  cases hd : decode r with
  | instr i =>
    exact ⟨_, (step_instr h hd).trans (givesLawfulResult_of_decode hd _), rfl, rfl, rfl,
      (respondsTo_instr hd _).mpr rfl⟩
  | reserved why => exact ⟨_, step_reserved h hd, rfl, rfl, rfl, (respondsTo_reserved hd _).mpr rfl⟩

theorem inv_of_step_request {s t : State} {r : Request} {rest : List HostEvent}
    (h : s.inbox = .request r :: rest) (ht : step s = .next t) : t.Inv := by
  obtain ⟨t', ht', rfl, -, -, hresp⟩ := step_request h
  rw [ht] at ht'
  cases ht'
  exact fun _ => hresp

/-! ## Runs -/

/-- A run of one more step is the run and then the step. -/
theorem run_succ_of_run {M : Host.Core} {k : Nat} {s t : M.State} (h : M.run k s = .next t) :
    M.run (k + 1) s = M.step t := by
  induction k generalizing s with
  | zero =>
    obtain rfl : s = t := by simpa [Host.Core.run] using h
    cases hs : M.step s <;> simp [Host.Core.run, hs]
  | succ k ih =>
    cases hs : M.step s with
    | next s' =>
      have hrun : ∀ j, M.run (j + 1) s = M.run j s' := fun j => by simp [Host.Core.run, hs]
      rw [hrun] at h ⊢
      exact ih h
    | fault e => simp [Host.Core.run, hs] at h
    | refused e => simp [Host.Core.run, hs] at h

/-! ## The statements -/

/-- Settles O42, by what a step can do: an idle step changes nothing, a reset leaves no response to speak of, and a
request is answered rightly whatever the response before it was. -/
theorem responseMatchesItsRequestIsKept : Obligations.ResponseMatchesItsRequestIsKept := by
  intro s t hinv ht
  obtain ⟨-, rfl⟩ | ⟨rest, -, rfl⟩ | ⟨r, rest, -, hs, -⟩ | ⟨r, rest, -, hs, -⟩ := step_cases ht
  · exact hinv
  · exact State.inv_of_not_answered rfl
  · exact inv_of_step_request hs ht
  · exact inv_of_step_request hs ht

/-- Settles O40, by induction on the number of steps: the next step finds the oldest request not yet taken. -/
theorem responsesComeInRequestOrder : Obligations.ResponsesComeInRequestOrder := by
  intro rs rest s hs k hk
  induction k with
  | zero => exact ⟨s, rfl, hs, fun _ h => absurd h (Nat.lt_irrefl 0)⟩
  | succ k ih =>
    obtain ⟨t, hrun, hinbox, -⟩ := ih (Nat.le_of_succ_le hk)
    rw [List.drop_eq_getElem_cons hk, List.map_cons, List.cons_append] at hinbox
    obtain ⟨t', hstep, hreq, hrest, hans, hresp⟩ := step_request hinbox
    refine ⟨t', (run_succ_of_run hrun).trans hstep, hrest, fun r _ hr => ?_⟩
    obtain rfl : rs[k] = r := by simpa [List.getElem?_eq_getElem (Nat.lt_of_succ_le hk)] using hr
    exact ⟨hreq, hans, hresp⟩

/-- Settles O33, by the step that finds a request with a defined code. -/
theorem stepRunsTheDecodedInstruction : Obligations.StepRunsTheDecodedInstruction :=
  fun _ _ _ _ hs hd => step_instr hs hd

end Sys2Proof.Machine

namespace Sys2Proof.Machine

/-! ## The operation codes by their sub-fields (R62)

A remover is a variant at a width, and its code is the width and the variant's two sub-fields. Both directions of decode
and encode are stated over that, so that neither has to walk through the 23 operations. -/

/-- R62: sub-field `g` of a variant; the baseline has 11. -/
def granularityField : Variant → BitVec 2
  | .peel _ .one => 0b00#2
  | .peel _ .twoOne => 0b01#2
  | .peel _ .eightTwoOne => 0b10#2
  | .base => 0b11#2

/-- R62: sub-field `t` of a variant; the baseline has 00. -/
def techniqueField : Variant → BitVec 2
  | .peel .naive _ => 0b00#2
  | .peel .gm _ => 0b01#2
  | .peel .lemire _ => 0b10#2
  | .peel .ggm _ => 0b11#2
  | .base => 0b00#2

/-- R62: the code of a variant's remover: `cls` = 0, the width, and the variant's sub-fields. -/
def removerOp (w : BitVec 1) (v : Variant) : Opcode := 0#1 ++ w ++ granularityField v ++ techniqueField v

/-- R62: the sub-fields that decode reads from the code of a variant's remover are the ones it was made of. -/
theorem removerOp_subfields (w : BitVec 1) (v : Variant) :
    opCls (removerOp w v) = 0#1 ∧ opW (removerOp w v) = w ∧
      variantOf (opG (removerOp w v)) (opT (removerOp w v)) = some v := by
  revert w
  rcases v with ⟨_ | _ | _ | _, _ | _ | _⟩ | _ <;> decide

@[simp] theorem opCls_removerOp (w : BitVec 1) (v : Variant) : opCls (removerOp w v) = 0#1 :=
  (removerOp_subfields w v).1

@[simp] theorem opW_removerOp (w : BitVec 1) (v : Variant) : opW (removerOp w v) = w :=
  (removerOp_subfields w v).2.1

@[simp] theorem variantOf_removerOp (w : BitVec 1) (v : Variant) :
    variantOf (opG (removerOp w v)) (opT (removerOp w v)) = some v :=
  (removerOp_subfields w v).2.2

theorem removerOp_ne_wmul (w : BitVec 1) (v : Variant) : removerOp w v ≠ 0x20#6 :=
  ne_of_apply_ne opCls (by rw [opCls_removerOp]; decide)

/-- R62: a code that names a variant is the code of that variant, at the width it names. -/
theorem eq_removerOp_of_variantOf :
    ∀ op : Opcode, opCls op ≠ 1#1 → ∀ v ∈ variantOf (opG op) (opT op), op = removerOp (opW op) v := by decide

theorem removerOp32_lt (v : Variant) : (removerOp 0#1 v).toNat < 0x10 :=
  op_lt_0x10_of_width_32 _ (by simp) (by simp)

theorem removerOp64_range (v : Variant) : 0x10 ≤ (removerOp 1#1 v).toNat ∧ (removerOp 1#1 v).toNat < 0x20 :=
  op_range_of_width_64 _ (by simp) (by simp)

/-! ## Decode, by the code (R65) -/

theorem decode_wmul {r : Request} (h : r.op = 0x20#6) : decode r = .instr (.wmul r.a r.b) := by
  simp [decode, h]

theorem decode_remover32 {r : Request} {v : Variant} {i : Instr} (h : r.op = removerOp 0#1 v)
    (hi : instr32 (r.a.extractLsb' 0 32) v = some i) : decode r = .instr i := by
  simp [decode, h, hi, removerOp_ne_wmul]

theorem decode_remover64 {r : Request} {v : Variant} (h : r.op = removerOp 1#1 v) :
    decode r = .instr (instr64 r.a v) := by
  simp [decode, h, removerOp_ne_wmul]

/-- R65: what a request that decodes to an instruction holds: the instruction's code, and the operand bits it reads. -/
theorem decode_instr_cases {r : Request} {i : Instr} (hd : decode r = .instr i) :
    (r.op = 0x20#6 ∧ i = .wmul r.a r.b) ∨
    (∃ v, r.op = removerOp 0#1 v ∧ instr32 (r.a.extractLsb' 0 32) v = some i) ∨
    (∃ v, r.op = removerOp 1#1 v ∧ i = instr64 r.a v) := by
  unfold decode at hd
  split at hd
  case isTrue h20 => exact .inl ⟨h20, (Decoded.instr.inj hd).symm⟩
  split at hd
  · cases hd
  next hcls =>
    split at hd
    · split at hd <;> cases hd
    next v hv =>
      have hop := eq_removerOp_of_variantOf r.op hcls v hv
      split at hd
      next hw =>
        rw [hw] at hop
        split at hd
        · cases hd
        next hi => exact .inr (.inl ⟨v, hop, hi.trans (congrArg some (Decoded.instr.inj hd))⟩)
      next hw =>
        rw [(BitVec.eq_zero_or_eq_one _).resolve_left hw] at hop
        exact .inr (.inr ⟨v, hop, (Decoded.instr.inj hd).symm⟩)

/-! ## Encode, by the variant (R66) -/

/-- R66: every operation is `WMUL`, or the remover of a variant at one of the two widths. -/
theorem instr_cases : ∀ i : Instr,
    (∃ x y, i = .wmul x y) ∨ (∃ n v, instr32 n v = some i) ∨ (∃ n v, i = instr64 n v)
  | .rtz32Naive n => .inr (.inl ⟨n, .peel .naive .one, rfl⟩)
  | .rtz32Gm n => .inr (.inl ⟨n, .peel .gm .one, rfl⟩)
  | .rtz32Lemire n => .inr (.inl ⟨n, .peel .lemire .one, rfl⟩)
  | .rtz32Ggm n => .inr (.inl ⟨n, .peel .ggm .one, rfl⟩)
  | .rtz32Naive21 n => .inr (.inl ⟨n, .peel .naive .twoOne, rfl⟩)
  | .rtz32Gm21 n => .inr (.inl ⟨n, .peel .gm .twoOne, rfl⟩)
  | .rtz32Lemire21 n => .inr (.inl ⟨n, .peel .lemire .twoOne, rfl⟩)
  | .rtz32Ggm21 n => .inr (.inl ⟨n, .peel .ggm .twoOne, rfl⟩)
  | .rtz32Base n => .inr (.inl ⟨n, .base, rfl⟩)
  | .rtz64Naive n => .inr (.inr ⟨n, .peel .naive .one, rfl⟩)
  | .rtz64Gm n => .inr (.inr ⟨n, .peel .gm .one, rfl⟩)
  | .rtz64Lemire n => .inr (.inr ⟨n, .peel .lemire .one, rfl⟩)
  | .rtz64Ggm n => .inr (.inr ⟨n, .peel .ggm .one, rfl⟩)
  | .rtz64Naive21 n => .inr (.inr ⟨n, .peel .naive .twoOne, rfl⟩)
  | .rtz64Gm21 n => .inr (.inr ⟨n, .peel .gm .twoOne, rfl⟩)
  | .rtz64Lemire21 n => .inr (.inr ⟨n, .peel .lemire .twoOne, rfl⟩)
  | .rtz64Ggm21 n => .inr (.inr ⟨n, .peel .ggm .twoOne, rfl⟩)
  | .rtz64Naive821 n => .inr (.inr ⟨n, .peel .naive .eightTwoOne, rfl⟩)
  | .rtz64Gm821 n => .inr (.inr ⟨n, .peel .gm .eightTwoOne, rfl⟩)
  | .rtz64Lemire821 n => .inr (.inr ⟨n, .peel .lemire .eightTwoOne, rfl⟩)
  | .rtz64Ggm821 n => .inr (.inr ⟨n, .peel .ggm .eightTwoOne, rfl⟩)
  | .rtz64Base n => .inr (.inr ⟨n, .base, rfl⟩)
  | .wmul x y => .inl ⟨x, y, rfl⟩

theorem encode_wmul (x y : Word) : encode (.wmul x y) = { op := 0x20#6, a := x, b := y } := rfl

theorem encode_instr32 {n : Half} {v : Variant} {i : Instr} (h : instr32 n v = some i) :
    encode i = { op := removerOp 0#1 v, a := n.setWidth 64, b := 0#64 } := by
  rcases v with ⟨_ | _ | _ | _, _ | _ | _⟩ | _ <;> cases h <;> rfl

theorem encode_instr64 (n : Word) (v : Variant) :
    encode (instr64 n v) = { op := removerOp 1#1 v, a := n, b := 0#64 } := by
  rcases v with ⟨_ | _ | _ | _, _ | _ | _⟩ | _ <;> rfl

/-- R65, R66: decode reads every operation back from its own request. -/
@[simp] theorem decode_encode (i : Instr) : decode (encode i) = .instr i := by
  obtain ⟨x, y, rfl⟩ | ⟨n, v, hi⟩ | ⟨n, v, rfl⟩ := instr_cases i
  · exact decode_wmul rfl
  · rw [encode_instr32 hi]
    exact decode_remover32 rfl (by simpa using hi)
  · rw [encode_instr64]
    exact decode_remover64 rfl

/-- Settles O25: the request word gives its request back, and decode the operation of the request. -/
theorem decodeInvertsEncodeOnWords : Obligations.DecodeInvertsEncodeOnWords := fun i => by
  rw [decodeWord, encodeWord, Request.ofWord_word, decode_encode]

/-! ## The ignored bits (R68, R70) -/

theorem getLsbD_five_eq : ∀ op : Opcode, op.getLsbD 5 = !decide (op.toNat < 0x20) := by decide

theorem getLsbD_four_eq : ∀ op : Opcode, op.toNat < 0x20 → op.getLsbD 4 = !decide (op.toNat < 0x10) := by decide

/-- R68: the ignored bits, by the range of the code: `b` of a remover, and the high half of `a` of a 32-bit one. -/
theorem ignoredBitsZero_iff (r : Request) :
    r.ignoredBitsZero = true ↔
      (r.op.toNat < 0x20 → r.b = 0#64) ∧ (r.op.toNat < 0x10 → r.a.extractLsb' 32 32 = 0#32) := by
  rw [Request.ignoredBitsZero, getLsbD_five_eq]
  by_cases h20 : r.op.toNat < 0x20
  · rw [getLsbD_four_eq _ h20]
    by_cases h10 : r.op.toNat < 0x10 <;> simp [h20, h10]
  · have h10 : ¬ r.op.toNat < 0x10 := by omega
    simp [h20, h10]

/-- An operand whose high half is 0 is its low half, zero extended. -/
theorem setWidth_low_half {a : Word} (h : a.extractLsb' 32 32 = 0#32) : (a.extractLsb' 0 32).setWidth 64 = a := by
  have hhigh : a.toNat / 2 ^ 32 % 2 ^ 32 = 0 := by
    simpa [BitVec.extractLsb'_toNat, Nat.shiftRight_eq_div_pow] using congrArg BitVec.toNat h
  apply BitVec.eq_of_toNat_eq
  have := a.isLt
  simp only [BitVec.toNat_setWidth, BitVec.extractLsb'_toNat, Nat.shiftRight_zero]
  omega

/-- R70: encode writes the code and the operand bits that the operation reads, and 0 into the others. -/
theorem encode_of_decode {r : Request} {i : Instr} (hd : decode r = .instr i) :
    encode i =
      { op := r.op
        a := if r.op.toNat < 0x10 then (r.a.extractLsb' 0 32).setWidth 64 else r.a
        b := if r.op.toNat < 0x20 then 0#64 else r.b } := by
  obtain ⟨hop, rfl⟩ | ⟨v, hop, hi⟩ | ⟨v, hop, rfl⟩ := decode_instr_cases hd
  · simp [encode_wmul, hop]
  · have hlt := removerOp32_lt v
    have hlt' : (removerOp 0#1 v).toNat < 0x20 := by omega
    simp [encode_instr32 hi, hop, hlt, hlt']
  · obtain ⟨hge, hlt⟩ := removerOp64_range v
    simp [encode_instr64, hop, hlt, Nat.not_lt.mpr hge]

/-- Settles O26: encode writes 0 exactly where the operation reads nothing, so it keeps a request that has 0 there. -/
theorem decodedRequestsEncodeBack : Obligations.DecodedRequestsEncodeBack := by
  refine fun r i hd => ⟨encode_of_decode hd, fun hzero => ?_⟩
  obtain ⟨hb, ha⟩ := (ignoredBitsZero_iff r).mp hzero
  have hb' : (if r.op.toNat < 0x20 then 0#64 else r.b) = r.b := ite_eq_right_iff.mpr fun h => (hb h).symm
  have ha' : (if r.op.toNat < 0x10 then (r.a.extractLsb' 0 32).setWidth 64 else r.a) = r.a :=
    ite_eq_right_iff.mpr fun h => setWidth_low_half (ha h)
  rw [encode_of_decode hd, ha', hb']

/-! ## The reserved codes (R67) -/

theorem instr32_eq_none_iff (n : Half) (v : Variant) : instr32 n v = none ↔ v.existsAt32 = false := by
  rw [← instr32_isSome n v, Option.isSome_eq_false_iff, Option.isNone_iff_eq_none]

/-- R65: whether a request is rejected, and in which class, depends on its code alone. -/
theorem decode_reserved_of_op_eq {r r' : Request} {why : Reserved} (hop : r'.op = r.op)
    (hd : decode r = .reserved why) : decode r' = .reserved why := by
  unfold decode at hd ⊢
  rw [hop]
  split at hd
  · cases hd
  next h20 =>
    rw [if_neg h20]
    split at hd
    next hcls => rwa [if_pos hcls]
    next hcls =>
      rw [if_neg hcls]
      split at hd
      next hv => simpa only [hv] using hd
      next v hv =>
        split at hd
        next hw =>
          split at hd
          next hi =>
            have hi' := (instr32_eq_none_iff (r'.a.extractLsb' 0 32) v).mpr ((instr32_eq_none_iff _ v).mp hi)
            simpa only [hv, if_pos hw, hi'] using hd
          · cases hd
        · cases hd

/-- A class of reserved codes is a set of codes: decode may be asked at any operands. -/
theorem decode_reserved_iff (r : Request) (why : Reserved) :
    decode r = .reserved why ↔ decode { op := r.op, a := 0#64, b := 0#64 } = .reserved why :=
  ⟨decode_reserved_of_op_eq rfl, decode_reserved_of_op_eq rfl⟩

/-- R67: the first and the last code of each class. -/
def reservedRange : Reserved → Nat × Nat
  | .eightDigitWidth32 => (0x08, 0x0B)
  | .baselineTechnique32 => (0x0D, 0x0F)
  | .baselineTechnique64 => (0x1D, 0x1F)
  | .wideMultiplyOtherBits => (0x21, 0x3F)

/-- R67: decode rejects a request in a class exactly where its code is one of the class's. -/
theorem decode_eq_reserved_iff (r : Request) (why : Reserved) :
    decode r = .reserved why ↔ (reservedRange why).1 ≤ r.op.toNat ∧ r.op.toNat ≤ (reservedRange why).2 := by
  have htable : ∀ op : Opcode, decode { op := op, a := 0#64, b := 0#64 } = .reserved why ↔
      (reservedRange why).1 ≤ op.toNat ∧ op.toNat ≤ (reservedRange why).2 := by
    cases why <;> decide
  rw [decode_reserved_iff, htable]

theorem reservedOp_iff_exists_range :
    ∀ op : Opcode, reservedOp op = true ↔
      ∃ why ∈ [Reserved.eightDigitWidth32, .baselineTechnique32, .baselineTechnique64, .wideMultiplyOtherBits],
        (reservedRange why).1 ≤ op.toNat ∧ op.toNat ≤ (reservedRange why).2 := by decide

/-- R67: the 41 codes are exactly the ones that decode rejects. -/
theorem reservedOp_iff_exists_decode (r : Request) :
    reservedOp r.op = true ↔ ∃ why, decode r = .reserved why := by
  constructor
  · intro h
    obtain ⟨why, -, hrange⟩ := (reservedOp_iff_exists_range r.op).mp h
    exact ⟨why, (decode_eq_reserved_iff r why).mpr hrange⟩
  · rintro ⟨why, hd⟩
    by_contra hdef
    obtain ⟨i, hi⟩ := exists_decode_instr_of_defined (Bool.eq_false_of_not_eq_true hdef)
    rw [hd] at hi
    cases hi

/-- Settles O28, by the table of the four classes; the count is one of 64 codes. -/
theorem reservedCodesAreExactlyTheTable : Obligations.ReservedCodesAreExactlyTheTable :=
  ⟨fun r => ⟨decode_eq_reserved_iff r _, decode_eq_reserved_iff r _, decode_eq_reserved_iff r _,
    decode_eq_reserved_iff r _⟩, by decide, reservedOp_iff_exists_decode⟩

/-! ## The ignored operand bits of a step (R68) -/

/-- R61: a remover's request decodes to the same instruction whatever the bits that its format does not read. -/
theorem decode_eq_of_read_bits {r r' : Request} {i : Instr} (hd : decode r = .instr i) (hlt : r.op.toNat < 0x20)
    (hop : r'.op = r.op) (hlow : r'.a.extractLsb' 0 32 = r.a.extractLsb' 0 32)
    (hwide : 0x10 ≤ r.op.toNat → r'.a = r.a) : decode r' = .instr i := by
  obtain ⟨h20, -⟩ | ⟨v, h32, hi⟩ | ⟨v, h64, rfl⟩ := decode_instr_cases hd
  · exact absurd hlt (by simp [h20])
  · exact decode_remover32 (hop.trans h32) (by rw [hlow, hi])
  · rw [← hwide (h64 ▸ (removerOp64_range v).1)]
    exact decode_remover64 (hop.trans h64)

/-- Settles O38: the two requests decode to one instruction, whose results do not read the request fields. -/
theorem ignoredBitsChangeNoResult : Obligations.IgnoredBitsChangeNoResult := by
  intro s r r' rest hdef hlt hop hlow hwide
  obtain ⟨i, hd⟩ := exists_decode_instr_of_defined hdef
  have hd' := decode_eq_of_read_bits hd hlt hop hlow hwide
  obtain ⟨r0, r1, hexec⟩ := exec_responds_uniformly i
  exact ⟨_, _, (step_instr rfl hd).trans (hexec _), (step_instr rfl hd').trans (hexec _), rfl, rfl⟩

/-! ## The requests that encode writes (R70) -/

/-- R66: encode writes none of the reserved codes, since decode reads its request back. -/
theorem reservedOp_encode (i : Instr) : reservedOp (encode i).op = false := by
  refine Bool.eq_false_of_not_eq_true fun hres => ?_
  obtain ⟨why, hd⟩ := (reservedOp_iff_exists_decode (encode i)).mp hres
  rw [decode_encode] at hd
  cases hd

theorem ignoredBitsZero_encode (i : Instr) : (encode i).ignoredBitsZero = true := by
  refine (ignoredBitsZero_iff _).mpr ?_
  obtain ⟨x, y, rfl⟩ | ⟨n, v, hi⟩ | ⟨n, v, rfl⟩ := instr_cases i
  · simp [encode_wmul]
  · simp [encode_instr32 hi, Laws.high_half_zero]
  · simp [encode_instr64, (removerOp64_range v).1]

/-! ## Lines of the assembler (R70) -/

theorem assemble_wmul {x y : Nat} {i : Instr} (h : assemble (.wmul x y) = some i) :
    x < 2 ^ 64 ∧ y < 2 ^ 64 ∧ i = .wmul (BitVec.ofNat 64 x) (BitVec.ofNat 64 y) := by
  have hwf := wellFormed_of_assemble h
  simp only [assemble, if_pos hwf, Option.some.injEq] at h
  simp only [AsmLine.wellFormed, Bool.and_eq_true, decide_eq_true_eq] at hwf
  obtain ⟨hx, hy⟩ := hwf
  exact ⟨hx, hy, h.symm⟩

theorem assemble_rtz32 {v : Variant} {n : Nat} {i : Instr} (h : assemble (.rtz32 v n) = some i) :
    n < 2 ^ 32 ∧ instr32 (BitVec.ofNat 32 n) v = some i := by
  have hwf := wellFormed_of_assemble h
  simp only [assemble, if_pos hwf] at h
  simp only [AsmLine.wellFormed, Bool.and_eq_true, decide_eq_true_eq] at hwf
  obtain ⟨-, hn⟩ := hwf
  exact ⟨hn, h⟩

theorem assemble_rtz64 {v : Variant} {n : Nat} {i : Instr} (h : assemble (.rtz64 v n) = some i) :
    n < 2 ^ 64 ∧ i = instr64 (BitVec.ofNat 64 n) v := by
  have hwf := wellFormed_of_assemble h
  simp only [assemble, if_pos hwf, Option.some.injEq] at h
  simp only [AsmLine.wellFormed, decide_eq_true_eq] at hwf
  exact ⟨hwf, h.symm⟩

theorem assemble_isSome (l : AsmLine) : (assemble l).isSome = l.wellFormed := by
  cases hwf : l.wellFormed with
  | false => simp [assemble, hwf]
  | true =>
    cases l with
    | wmul x y => simp [assemble, hwf]
    | rtz64 v n => simp [assemble, hwf]
    | rtz32 v n =>
      have hv : v.existsAt32 = true := (Bool.and_eq_true_iff.mp hwf).1
      simp [assemble, hwf, instr32_isSome, hv]

/-- Settles O30, by the three forms of a line: a literal that fits its operand is the operand's value. -/
theorem assemblerWritesTheRequest : Obligations.AssemblerWritesTheRequest := by
  refine ⟨assemble_isSome, fun _ i _ => ignoredBitsZero_encode i, fun x y i h => ?_, fun v n i h => ?_,
    fun v n i h => ?_⟩
  · obtain ⟨hx, hy, rfl⟩ := assemble_wmul h
    exact ⟨rfl, Nat.mod_eq_of_lt hx, Nat.mod_eq_of_lt hy⟩
  · obtain ⟨hn, hi⟩ := assemble_rtz32 h
    rw [encode_instr32 hi]
    refine ⟨removerOp32_lt v, ?_, rfl⟩
    rw [BitVec.toNat_setWidth_of_le (by decide), BitVec.toNat_ofNat, Nat.mod_eq_of_lt hn]
  · obtain ⟨hn, rfl⟩ := assemble_rtz64 h
    obtain ⟨hge, hlt⟩ := removerOp64_range v
    rw [encode_instr64]
    exact ⟨hge, hlt, Nat.mod_eq_of_lt hn, rfl⟩

/-! ## Programs (R70) -/

/-- A program assembles to the requests of operations, at most one for each line. -/
theorem assembleProgram_eq_map_encode {texts : List String} {rs : List Request}
    (h : assembleProgram texts = some rs) : ∃ is : List Instr, rs = is.map encode ∧ is.length ≤ texts.length := by
  induction texts generalizing rs with
  | nil => exact ⟨[], by simpa [assembleProgram] using h.symm, Nat.le_refl 0⟩
  | cons t ts ih =>
    obtain ⟨-, hts⟩ | ⟨-, i, rest, -, -, hts, rfl⟩ := assembleProgram_cons h
    · obtain ⟨is, hrs, hlen⟩ := ih hts
      exact ⟨is, hrs, Nat.le_succ_of_le hlen⟩
    · obtain ⟨is, rfl, hlen⟩ := ih hts
      exact ⟨i :: is, rfl, Nat.succ_le_succ hlen⟩

/-- Settles O32: the requests are those of operations, which decode reads back. -/
theorem assembledProgramsHoldDefinedRequests : Obligations.AssembledProgramsHoldDefinedRequests := by
  intro texts rs h
  obtain ⟨is, rfl, hlen⟩ := assembleProgram_eq_map_encode h
  refine ⟨by simpa using hlen, fun r hr => ?_⟩
  obtain ⟨i, -, rfl⟩ := List.mem_map.mp hr
  exact ⟨reservedOp_encode i, ignoredBitsZero_encode i, i, decode_encode i, rfl⟩

/-- Settles O31, by assembling the lines of the table. -/
theorem mnemonicsSelectTheirCodes : Obligations.MnemonicsSelectTheirCodes :=
  ⟨by decide, by decide, by decide, by decide, by decide⟩

end Sys2Proof.Machine

namespace Sys2Proof.Machine

/-! ## The exact multiply (R100) -/

/-- R100: the defining identity and `low < 2^64` determine the two halves. -/
theorem wmulNat_unique {x y high low : Nat} (hprod : high * 2 ^ 64 + low = x * y) (hlow : low < 2 ^ 64) :
    (high, low) = wmulNat x y := by
  rw [wmulNat_eq, ← hprod, Prod.mk.injEq]
  omega

theorem wmulNat_high_lt {x y : Nat} (hx : x < 2 ^ 64) (hy : y < 2 ^ 64) : (wmulNat x y).1 < 2 ^ 64 :=
  Nat.div_lt_of_lt_mul (Nat.mul_lt_mul'' hx hy)

theorem wmulNat_low_lt (x y : Nat) : (wmulNat x y).2 < 2 ^ 64 := Nat.mod_lt _ (by decide)

theorem zext64_toNat_of_lt {k : Nat} (h : k < 2 ^ 64) : (zext64 k).toNat = k := Nat.mod_eq_of_lt h

/-- R105: nothing wraps, so the words of `wmul` hold the two halves whole. -/
theorem wmul_high_toNat (x y : Word) : (wmul x y).1.toNat = (wmulNat x.toNat y.toNat).1 :=
  zext64_toNat_of_lt (wmulNat_high_lt x.isLt y.isLt)

theorem wmul_low_toNat (x y : Word) : (wmul x y).2.toNat = (wmulNat x.toNat y.toNat).2 :=
  zext64_toNat_of_lt (wmulNat_low_lt _ _)

/-- R100: the defining identity, on words. -/
theorem wmul_identity (x y : Word) :
    (wmul x y).1.toNat * 2 ^ 64 + (wmul x y).2.toNat = x.toNat * y.toNat := by
  rw [wmul_high_toNat, wmul_low_toNat, wmulNat_eq]
  exact Nat.div_add_mod' _ _

theorem wmulNat_comm (x y : Nat) : wmulNat x y = wmulNat y x := by
  rw [wmulNat_eq, wmulNat_eq, Nat.mul_comm]

theorem wmul_comm (x y : Word) : wmul x y = wmul y x := by
  rw [wmul, wmul, wmulNat_comm]

theorem exec_wmul (x y : Word) (s : State) :
    exec (.wmul x y) s = .next (s.respond (wmul x y).2 (wmul x y).1) := rfl

/-! ## The portable decomposition (R101) -/

theorem shr_mul_add_lower32 (v : Nat) : shr v 32 * 2 ^ 32 + lower32 v = v := Nat.div_add_mod' v (2 ^ 32)

theorem lower32_lt (v : Nat) : lower32 v < 2 ^ 32 := Nat.mod_lt v (by decide)

theorem shr_32_lt {v : Nat} (h : v < 2 ^ 64) : shr v 32 < 2 ^ 32 := Nat.div_lt_of_lt_mul h

/-- R102, first equation of its proof: the product by columns of the four partial products. -/
theorem partials_columns (x y : Nat) :
    (partials x y).ac * 2 ^ 64 + ((partials x y).ad + (partials x y).bc) * 2 ^ 32 + (partials x y).bd = x * y := by
  conv_rhs => rw [← shr_mul_add_lower32 x, ← shr_mul_add_lower32 y]
  simp only [partials]
  ring

/-- R101: the shifted column has its low 32 bits clear, so adding `lower32(bd)` carries nothing. -/
theorem portableLow_eq (p : Partials) :
    portableLow p = lower32 (intermediate p) * 2 ^ 32 + lower32 p.bd := by
  have hshift : trunc 64 (shl (intermediate p) 32) = lower32 (intermediate p) * 2 ^ 32 :=
    Nat.mul_mod_mul_right (2 ^ 32) (intermediate p) (2 ^ 32)
  rw [portableLow, hshift]

theorem portableLow_lt (p : Partials) : portableLow p < 2 ^ 64 := by
  have hmid := lower32_lt (intermediate p)
  have hbd := lower32_lt p.bd
  rw [portableLow_eq]
  omega

/-- R102, second equation of its proof: what the middle column carries into `high` is what `low` drops, so the two sums
keep the value of the columns. -/
theorem portable_columns (p : Partials) :
    portableHigh p * 2 ^ 64 + portableLow p = p.ac * 2 ^ 64 + (p.ad + p.bc) * 2 ^ 32 + p.bd := by
  calc portableHigh p * 2 ^ 64 + portableLow p
      = (p.ac + shr p.ad 32 + shr p.bc 32) * 2 ^ 64 +
          (shr (intermediate p) 32 * 2 ^ 32 + lower32 (intermediate p)) * 2 ^ 32 + lower32 p.bd := by
        rw [portableLow_eq, portableHigh]; ring
    _ = (p.ac + shr p.ad 32 + shr p.bc 32) * 2 ^ 64 +
          (shr p.bd 32 + lower32 p.ad + lower32 p.bc) * 2 ^ 32 + lower32 p.bd := by
        rw [shr_mul_add_lower32, intermediate]
    _ = p.ac * 2 ^ 64 +
          ((shr p.ad 32 * 2 ^ 32 + lower32 p.ad) + (shr p.bc 32 * 2 ^ 32 + lower32 p.bc)) * 2 ^ 32 +
          (shr p.bd 32 * 2 ^ 32 + lower32 p.bd) := by ring
    _ = p.ac * 2 ^ 64 + (p.ad + p.bc) * 2 ^ 32 + p.bd := by simp only [shr_mul_add_lower32]

/-- R102 on natural numbers: the sums of R101 are the halves of the exact product. -/
theorem portable_eq_wmulNat (x y : Nat) :
    (portableHigh (partials x y), portableLow (partials x y)) = wmulNat x y :=
  wmulNat_unique ((portable_columns _).trans (partials_columns x y)) (portableLow_lt _)

/-- R101: a product of two 32-bit halves is at most `(2^32 - 1)^2`. -/
theorem half_mul_half_le {a b : Nat} (ha : a < 2 ^ 32) (hb : b < 2 ^ 32) : a * b ≤ 0xFFFFFFFE00000001 :=
  calc a * b ≤ (2 ^ 32 - 1) * (2 ^ 32 - 1) := Nat.mul_le_mul (Nat.le_sub_one_of_lt ha) (Nat.le_sub_one_of_lt hb)
    _ = 0xFFFFFFFE00000001 := by decide

/-- R101: the middle column is a sum of three terms below `2^32`. -/
theorem intermediate_le {p : Partials} (hbd : p.bd < 2 ^ 64) : intermediate p ≤ 0x2FFFFFFFD := by
  have hbdHigh := shr_32_lt hbd
  have had := lower32_lt p.ad
  have hbc := lower32_lt p.bc
  rw [intermediate]
  omega

/-! ## The statements -/

/-- Settles O1: the words of `wmul` are the witnesses, by the identity of R100 and its bound on `high`. -/
theorem wmulWritesTheExactProduct : Obligations.WmulWritesTheExactProduct := by
  intro x y s
  have hcomm : exec (.wmul x y) s = exec (.wmul y x) s := by rw [exec_wmul, exec_wmul, wmul_comm]
  exact ⟨decode_wmul rfl, hcomm, (wmul x y).1, (wmul x y).2, exec_wmul x y s, wmul_identity x y, wmul_high_le x y⟩

/-- Settles O2: the two pairs agree as natural numbers before they are taken to words. -/
theorem portableDecompositionIsExact : Obligations.PortableDecompositionIsExact := by
  intro x y
  rw [wmul, ← portable_eq_wmulNat]
  rfl

/-- Settles O3: the partial products by the bounds of the halves, the middle column by its three terms, and `high` as
the upper half of a product of two words. -/
theorem portableValuesKeepTheirMaxima : Obligations.PortableValuesKeepTheirMaxima := by
  intro x y p
  have ha := shr_32_lt x.isLt
  have hc := shr_32_lt y.isLt
  have hb := lower32_lt x.toNat
  have hd := lower32_lt y.toNat
  have hbd : p.bd ≤ 0xFFFFFFFE00000001 := half_mul_half_le hb hd
  have hmid : intermediate p ≤ 0x2FFFFFFFD := intermediate_le (Nat.lt_of_le_of_lt hbd (by decide))
  have hhigh : portableHigh p = (wmulNat x.toNat y.toNat).1 := congrArg Prod.fst (portable_eq_wmulNat _ _)
  exact ⟨⟨half_mul_half_le ha hc, half_mul_half_le hb hc, half_mul_half_le ha hd, hbd⟩, hmid,
    Nat.div_le_div_right hmid, hhigh ▸ wmulNat_high_lt x.isLt y.isLt, portableLow_lt p⟩

end Sys2Proof.Machine

namespace Sys2Proof.Machine

/-! ## The contract and the constants of the tests (R130, R132, R135, R139) -/

/-- Settles O4, by the two halves of the contract of each test. -/
theorem everyTestMeetsTheContract : Obligations.EveryTestMeetsTheContract := tester_meetsContract

/-- Settles O5: the contract is WM's among the four, and the quotient is the floor because the remainder of the exact
product stays below `2^F`. -/
theorem wideCompareQuotientIsFloor : Obligations.WideCompareQuotientIsFloor :=
  ⟨tester_meetsContract .lemire, fun site _ hn => testWide_q_eq_div site hn⟩

/-- `2^W` is a multiple of no `d`, so the threshold is the floor with and without the 1 taken off. -/
theorem rotThreshold_eq_two_pow_div (site : Site) : rotThreshold site = 2 ^ site.width.bits / site.divisor := by
  cases site <;> decide

theorem oddPart_odd (site : Site) : oddPart site % 2 = 1 := by cases site <;> decide

theorem rotMultiplier_lt (site : Site) : rotMultiplier site < 2 ^ site.width.bits := by cases site <;> decide

theorem one_lt_two_pow_bits (w : Width) : 1 < 2 ^ w.bits := by cases w <;> decide

/-- Settles O6: the derivation row by row, then the table as it stands. -/
theorem rotateConstantsFollowTheirDerivation : Obligations.RotateConstantsFollowTheirDerivation := by
  refine ⟨fun site => ?_, by decide, by decide⟩
  have hinverse : oddPart site * rotMultiplier site % 2 ^ site.width.bits = 1 :=
    Eq.trans (oddPart_mul_rotMultiplier site) (Nat.mod_eq_of_lt (one_lt_two_pow_bits site.width))
  exact ⟨site.divisor_eq_twoPower_mul_oddPart, oddPart_odd site, rotMultiplier_lt site, hinverse,
    rotThreshold_eq_two_pow_div site, rotThreshold_eq site⟩

theorem shiftMultiplier_lt (site : Site) : shiftMultiplier site < 2 ^ shiftB site := by cases site <;> decide

/-- R139: the low `W` bits of SH's multiplier are ROT's. -/
theorem shiftMultiplier_mod (site : Site) : shiftMultiplier site % 2 ^ site.width.bits = rotMultiplier site := by
  cases site <;> decide

/-- Settles O8: the derivation row by row, then the table as it stands. -/
theorem shiftConstantsFollowTheirDerivation : Obligations.ShiftConstantsFollowTheirDerivation :=
  ⟨fun site => ⟨rfl, shiftMultiplier_lt site, oddPart_mul_shiftMultiplier site, shiftThreshold_eq site,
    (rotThreshold_eq site).symm, shiftMultiplier_mod site⟩, by decide⟩

/-! ### A smaller `k` fails (R135)

Write `c` for the rounded-up multiplier at `k` and `e = c·d - 2^F`. For the least `m` with `c ≤ m·e`, the input
`m·d - 1` leaves the remainder `m·e - c < c`, so the test accepts it, and `d` does not divide it. Both inputs that R135
gives are of this form. -/

/-- R135: `ceil(2^(W + k) / d)`, the multiplier of a row at any `k`. -/
def wideMultiplierAt (site : Site) (k : Nat) : Nat :=
  (2 ^ (site.width.bits + k) + site.divisor - 1) / site.divisor

/-- R135: `e` of a row at any `k`. -/
def wideExcessAt (site : Site) (k : Nat) : Nat :=
  wideMultiplierAt site k * site.divisor - 2 ^ (site.width.bits + k)

/-- The least `m` with `c ≤ m·e`. -/
def wrongQuotientAt (site : Site) (k : Nat) : Nat :=
  (wideMultiplierAt site k + wideExcessAt site k - 1) / wideExcessAt site k

theorem wideMultiplier_eq_at (site : Site) : wideMultiplier site = wideMultiplierAt site (wideK site) := by
  cases site <;> decide

theorem wideExcess_eq_at (site : Site) : wideExcess site = wideExcessAt site (wideK site) := by
  rw [wideExcess, wideExcessAt, ← wideMultiplier_eq_at, wideF]

/-- In every row and at every smaller `k`, the wrongly accepted input is below `2^W`. -/
theorem wrongQuotientAt_spec (site : Site) : ∀ k < wideK site,
    wideMultiplierAt site k * site.divisor = 2 ^ (site.width.bits + k) + wideExcessAt site k ∧
    wideMultiplierAt site k ≤ wrongQuotientAt site k * wideExcessAt site k ∧
    wrongQuotientAt site k * wideExcessAt site k < 2 * wideMultiplierAt site k ∧
    wrongQuotientAt site k * site.divisor ≤ 2 ^ site.width.bits := by
  cases site <;> decide

/-- The input `m·d - 1` leaves at most `m·e - c` modulo `2^F`. -/
theorem pred_mul_mod_lt {m d c e N : Nat} (hc : c * d = N + e) (hle : c ≤ m * e)
    (hlt : m * e < 2 * c) : (m * d - 1) * c % N < c := by
  have hprod : (m * d - 1) * c = (m * e - c) + N * m :=
    calc (m * d - 1) * c = m * (c * d) - c := by rw [Nat.sub_mul, Nat.one_mul]; congr 1; ring
      _ = N * m + m * e - c := by rw [hc]; congr 1; ring
      _ = (m * e - c) + N * m := by rw [Nat.add_sub_assoc hle, Nat.add_comm]
  rw [hprod, Nat.add_mul_mod_self_left]
  have := Nat.mod_le (m * e - c) N
  omega

/-- One less than a positive multiple of `d > 1` is no multiple of `d`. -/
theorem pred_mul_mod_ne_zero {m d : Nat} (hmd : 0 < m * d) (hd : 1 < d) : (m * d - 1) % d ≠ 0 := fun h =>
  have hone : d ∣ 1 := (Nat.dvd_sub_iff_right hmd (Nat.dvd_mul_left d m)).mp (Nat.dvd_of_mod_eq_zero h)
  absurd (Nat.le_of_dvd Nat.one_pos hone) (Nat.not_le_of_lt hd)

theorem Site.one_lt_divisor (site : Site) : 1 < site.divisor := by cases site <;> decide

/-- Settles O7: in a smaller `k`'s row the input `m·d - 1` is accepted though `d` does not divide it, and `m ≤ Q + 1`
carries `c ≤ m·e` to the failure of the condition. -/
theorem wideCompareConstantsAreTheSmallest : Obligations.WideCompareConstantsAreTheSmallest := by
  refine ⟨fun site => ⟨wideMultiplier_eq_at site, ?_, fun k hk => ?_⟩, by decide, by decide, by decide⟩
  · have hcond := wideExcess_mul_lt site
    rwa [wideExcess_eq_at, wideMultiplier_eq_at] at hcond
  · obtain ⟨hc, hle, hlt, hrange⟩ := wrongQuotientAt_spec site k hk
    have hpos : 0 < wrongQuotientAt site k * site.divisor := by
      refine Nat.mul_pos (Nat.pos_of_ne_zero fun h0 => ?_) site.divisor_pos
      rw [h0] at hle hlt
      omega
    have hquot : wrongQuotientAt site k ≤ (2 ^ site.width.bits - 1) / site.divisor + 1 := by
      rw [← Nat.sub_le_iff_le_add, Nat.le_div_iff_mul_le site.divisor_pos, Nat.sub_mul]
      have := site.divisor_pos
      omega
    refine ⟨Nat.not_lt_of_le (hle.trans (Nat.mul_le_mul_right _ hquot)),
      wrongQuotientAt site k * site.divisor - 1, by omega, fun hiff => ?_⟩
    exact pred_mul_mod_ne_zero hpos site.one_lt_divisor (hiff.mp (pred_mul_mod_lt hc hle hlt))

/-! ## The forms from one `wmul` (R136, R140) -/

/-- A value modulo `2^(64 + k)`, by its upper part and its low 64 bits. -/
theorem mod_two_pow_64_add (p k : Nat) : p % 2 ^ (64 + k) = p / 2 ^ 64 % 2 ^ k * 2 ^ 64 + p % 2 ^ 64 := by
  rw [Nat.pow_add, Nat.mod_mul, Nat.add_comm, Nat.mul_comm (2 ^ 64)]

theorem div_two_pow_64_add (p k : Nat) : p / 2 ^ (64 + k) = p / 2 ^ 64 / 2 ^ k := by
  rw [Nat.pow_add, Nat.div_div_eq_div_mul]

/-- A value below `c ≤ 2^64` has no part from bit 64 up. -/
theorem upper_add_low_lt_iff {c : Nat} (hc : c ≤ 2 ^ 64) (upper low : Nat) :
    upper * 2 ^ 64 + low < c ↔ upper = 0 ∧ low < c := by omega

theorem wideMultiplier_pos (site : Site) : 0 < wideMultiplier site := by cases site <;> decide

/-- R136: the exact product has at most `2W + 1` bits. -/
theorem two_pow_mul_wideMultiplier_lt (site : Site) :
    2 ^ site.width.bits * wideMultiplier site < 2 ^ (2 * site.width.bits + 1) := by cases site <;> decide

theorem two_pow_mul_wideMultiplier_lt_of_w32 {site : Site} (hw : site.width = .w32) :
    2 ^ site.width.bits * wideMultiplier site < 2 ^ 64 := by
  cases site with
  | w32d10 | w32d100 => decide
  | w64d10 | w64d100 | w64d1e8 => cases hw

/-- R136, R202, R210: for a `c` of 64 bits, the remainder is below `c` exactly when its bits from 64 up are 0 and its
low half is below `c`. -/
theorem testWideWmul_eq_testWide {site : Site} (hw : site.width = .w64) (hc : wideMultiplier site ≤ 2 ^ 64)
    (n : Nat) : testWideWmul site n = testWide site n := by
  have hF : wideF site = 64 + wideK site := by rw [wideF, hw]; rfl
  rw [TestResult.eq_iff_parts, testWideWmul_div_iff, testWide_div_iff, testWideWmul_q, testWide_q, wmulNat_eq, hF,
    mod_two_pow_64_add, div_two_pow_64_add, upper_add_low_lt_iff hc]
  exact ⟨Iff.rfl, rfl⟩

theorem wideMultiplier_w64d100 : wideMultiplier .w64d100 = 2 ^ 64 + wideLow100 := rfl

/-- R136: at `(64, 100)` the exact product is `S·2^64 + l`, because `c = 2^64 + c_lo`. -/
theorem wide100_product (n : Nat) :
    n * wideMultiplier .w64d100 = (n + (wmulNat n wideLow100).1) * 2 ^ 64 + (wmulNat n wideLow100).2 :=
  calc n * wideMultiplier .w64d100 = n * 2 ^ 64 + n * wideLow100 := by
        rw [wideMultiplier_w64d100, Nat.mul_add]
    _ = n * 2 ^ 64 + (n * wideLow100 / 2 ^ 64 * 2 ^ 64 + n * wideLow100 % 2 ^ 64) := by rw [Nat.div_add_mod']
    _ = (n + (wmulNat n wideLow100).1) * 2 ^ 64 + (wmulNat n wideLow100).2 := by rw [wmulNat_eq]; ring

/-- R136: `S` and `l` are the upper part and the low 64 bits of the exact product at `(64, 100)`. -/
theorem wide100_halves (n : Nat) :
    n * wideMultiplier .w64d100 / 2 ^ 64 = n + (wmulNat n wideLow100).1 ∧
      n * wideMultiplier .w64d100 % 2 ^ 64 = (wmulNat n wideLow100).2 := by
  have hlow := wmulNat_low_lt n wideLow100
  rw [wide100_product]
  omega

/-- R136, R206: the remainder is below `2^64 + c_lo` exactly when its bits from 64 up are 0, or are 1 with a low half
below `c_lo`. -/
theorem testWideWmul100_eq_testWide (n : Nat) : testWideWmul100 n = testWide .w64d100 n := by
  obtain ⟨hhigh, hlow⟩ := wide100_halves n
  have hlt := wmulNat_low_lt n wideLow100
  have hF : wideF .w64d100 = 64 + 7 := rfl
  have hlo : wideLow100 < 2 ^ 64 := by decide
  rw [TestResult.eq_iff_parts, testWideWmul100_div_iff, testWide_div_iff, testWideWmul100_q, testWide_q, hF,
    mod_two_pow_64_add, div_two_pow_64_add, hhigh, hlow,
    wideMultiplier_w64d100]
  exact ⟨by omega, rfl⟩

/-- Settles O9: the definition and its bounds hold in every row; at W = 64 the product is split at bit 64, where `wmul`
splits it. -/
theorem wideCompareFromOneWmul : Obligations.WideCompareFromOneWmul := by
  refine ⟨fun site n hn => ?_, fun n hn => ?_⟩
  · have hprod : n * wideMultiplier site < 2 ^ site.width.bits * wideMultiplier site :=
      Nat.mul_lt_mul_of_pos_right hn (wideMultiplier_pos site)
    exact ⟨rfl, hprod, two_pow_mul_wideMultiplier_lt site,
      fun hw => hprod.trans (two_pow_mul_wideMultiplier_lt_of_w32 hw)⟩
  · have hhigh : (wmulNat n wideLow100).1 < 2 ^ 64 := wmulNat_high_lt hn (by decide)
    exact ⟨testWideWmul_eq_testWide rfl (by decide) n, testWideWmul_eq_testWide rfl (by decide) n,
      testWideWmul100_eq_testWide n, wide100_product n, by omega⟩

/-- R140: `m' = top·2^64 + M`, so `top` adds `n·top` to the upper half of `n·M` and nothing to the lower. -/
theorem shiftProduct_eq_wmul {site : Site} (hw : site.width = .w64) (n : Nat) :
    n * shiftMultiplier site % 2 ^ shiftB site = shiftProductWmul site n := by
  have hB : shiftB site = 64 + twoPower site := by rw [shiftB, hw]; rfl
  have hM : rotMultiplier site = shiftMultiplier site % 2 ^ 64 := by rw [← shiftMultiplier_mod, hw]; rfl
  have hprod : n * shiftMultiplier site =
      n * rotMultiplier site + n * shr (shiftMultiplier site) 64 * 2 ^ 64 := by
    rw [hM, Nat.mul_assoc, ← Nat.mul_add, shr, Nat.mod_add_div']
  rw [hB, mod_two_pow_64_add, hprod, Nat.add_mul_div_right _ _ (Nat.two_pow_pos 64), Nat.add_mul_mod_self_right]
  rfl

/-- Settles O11: the first part is the definition; the second splits the product at bit 64. -/
theorem shiftProductFromOneWmul : Obligations.ShiftProductFromOneWmul :=
  ⟨fun _ _ => rfl, fun _ n hw _ => shiftProduct_eq_wmul hw n⟩

/-! ## `rtz` (R121) -/

theorem rtz_of_pos {n : Nat} (hpos : 0 < n) :
    rtz n = { trimmed := n / 10 ^ Nat.findGreatest (fun k => n % 10 ^ k = 0) n
              removedCount := Nat.findGreatest (fun k => n % 10 ^ k = 0) n } := if_neg hpos.ne'

/-- R121: the count is the greatest `k` with `10^k` dividing `n`. -/
theorem ten_pow_dvd_iff_le_removedCount {n : Nat} (hpos : 0 < n) (k : Nat) :
    10 ^ k ∣ n ↔ k ≤ (rtz n).removedCount := by
  have hcount : 10 ^ (rtz n).removedCount ∣ n := by
    rw [rtz_of_pos hpos]
    exact Nat.dvd_of_mod_eq_zero
      (Nat.findGreatest_spec (P := fun k => n % 10 ^ k = 0) (Nat.zero_le n) (Nat.mod_one n))
  refine ⟨fun hdvd => ?_, fun hle => (Nat.pow_dvd_pow 10 hle).trans hcount⟩
  rw [rtz_of_pos hpos]
  exact Nat.le_findGreatest ((Nat.lt_pow_self (by decide)).le.trans (Nat.le_of_dvd hpos hdvd))
    (Nat.mod_eq_zero_of_dvd hdvd)

/-- R151 for `rtz` itself. -/
theorem rtz_roundTrip (n : Nat) : (rtz n).trimmed * 10 ^ (rtz n).removedCount = n := by
  rcases Nat.eq_zero_or_pos n with rfl | hpos
  · rfl
  · have htrim : (rtz n).trimmed = n / 10 ^ (rtz n).removedCount := by rw [rtz_of_pos hpos]
    rw [htrim]
    exact Nat.div_mul_cancel ((ten_pow_dvd_iff_le_removedCount hpos _).mpr le_rfl)

/-- R152 for `rtz` itself: one more zero digit would be counted. -/
theorem rtz_trimmed_mod_ten_ne_zero {n : Nat} (hpos : 0 < n) : (rtz n).trimmed % 10 ≠ 0 := fun hmod => by
  have hdvd : 10 ^ ((rtz n).removedCount + 1) ∣ n := by
    conv_rhs => rw [← rtz_roundTrip n]
    rw [Nat.pow_succ, Nat.mul_comm]
    exact Nat.mul_dvd_mul_right (Nat.dvd_of_mod_eq_zero hmod) _
  exact Nat.not_succ_le_self _ ((ten_pow_dvd_iff_le_removedCount hpos _).mp hdvd)

theorem rtz_trimmed_pos {n : Nat} (hpos : 0 < n) : 0 < (rtz n).trimmed :=
  Nat.pos_of_ne_zero fun h => rtz_trimmed_mod_ten_ne_zero hpos (by rw [h])

theorem rtz_trimmed_le (n : Nat) : (rtz n).trimmed ≤ n := le_of_mul_ten_pow_eq (rtz_roundTrip n)

/-- A power of ten that divides an `n > 0` of at most `k + 1` digits is at most `10^k`. -/
theorem exponent_le_of_ten_pow_dvd {n c k : Nat} (hpos : 0 < n) (hdvd : 10 ^ c ∣ n) (hn : n < 10 ^ (k + 1)) : c ≤ k :=
  Nat.le_of_lt_succ
    ((Nat.pow_lt_pow_iff_right (by decide)).mp (Nat.lt_of_le_of_lt (Nat.le_of_dvd hpos hdvd) hn))

/-- R124: the count of an `n` with at most `k + 1` digits. -/
theorem rtz_removedCount_le {n k : Nat} (hn : n < 10 ^ (k + 1)) : (rtz n).removedCount ≤ k := by
  rcases Nat.eq_zero_or_pos n with rfl | hpos
  · exact Nat.zero_le k
  · exact exponent_le_of_ten_pow_dvd hpos ((ten_pow_dvd_iff_le_removedCount hpos _).mpr le_rfl) hn

/-- R124: the greatest count of the digits of `n` is reached exactly at the positive multiples of its power of ten. -/
theorem rtz_removedCount_eq_iff {n k : Nat} (hn : n < 10 ^ (k + 1)) (hk : 0 < k) :
    (rtz n).removedCount = k ↔ 0 < n ∧ 10 ^ k ∣ n := by
  have hle := rtz_removedCount_le hn
  rcases Nat.eq_zero_or_pos n with rfl | hpos
  · simpa using hk.ne
  · rw [ten_pow_dvd_iff_le_removedCount hpos]
    omega

/-- Settles O13: `rtz(n)` keeps both laws, and the laws leave no other pair. -/
theorem rtzIsTheOnlyTrimResult : Obligations.RtzIsTheOnlyTrimResult := by
  refine fun n hpos => ⟨fun t c => ⟨fun h => ?_, fun ⟨hprod, hmax⟩ => ?_⟩, rtz_trimmed_pos hpos,
    ten_pow_dvd_iff_le_removedCount hpos⟩
  · have hround := rtz_roundTrip n
    have hmax := rtz_trimmed_mod_ten_ne_zero hpos
    rw [h] at hround hmax
    exact ⟨hround, hmax⟩
  · exact rtz_eq_of_roundTrip_of_maximal hpos hprod hmax

/-! ## The schedules (R147 to R149) -/

/-- Settles O12, by the two laws that each schedule keeps and that determine `rtz`. -/
theorem schedulesComputeRtz : Obligations.SchedulesComputeRtz := fun _ hT =>
  ⟨fun w _ hn => ⟨peel1_eq_rtz hT w hn, peel21_eq_rtz hT w hn⟩, fun _ hn => peel821_eq_rtz hT hn⟩

theorem baseline_not_maximal (w : Width) : ¬ SatisfiesMaximality baseline w := fun h =>
  h 10 (by decide) (by cases w <;> decide) rfl

/-- Settles O47, schedule by schedule; the baseline leaves the zero of 10. -/
theorem schedulesSatisfyRoundTripAndMaximality : Obligations.SchedulesSatisfyRoundTripAndMaximality := by
  refine ⟨fun t w => ?_, fun t => ?_, fun w => ⟨baseline_roundTrip w, baseline_not_maximal w⟩, fun t w => ?_⟩
  · have hT := tester_meetsContract t
    exact ⟨peel1_roundTrip hT.dividesExactly w, peel1_maximal hT w, peel21_roundTrip hT.dividesExactly w,
      peel21_maximal hT w⟩
  · have hT := tester_meetsContract t
    exact ⟨peel821_roundTrip hT.dividesExactly, peel821_maximal hT⟩
  · rw [peel1_zero, peel21_zero, peel821_zero]
    exact ⟨rfl, rfl, rfl⟩

/-- Settles O16: the contract at `10^8` turns the fast path's two conditions into the ones on `n`. -/
theorem fastPathIsTakenExactlyWhereItFits : Obligations.FastPathIsTakenExactlyWhereItFits := by
  intro t n hn
  obtain ⟨hdiv, hq⟩ := tester_meetsContract t .w64d1e8 n hn
  rw [fastPath_iff]
  constructor
  · rintro ⟨hacc, hle⟩
    exact ⟨hdiv.mp hacc, hq hacc ▸ hle⟩
  · rintro ⟨hmod, hle⟩
    have hacc := hdiv.mpr hmod
    exact ⟨hacc, (hq hacc).symm ▸ hle⟩

/-! ### The loops end by the failing test (R148) -/

/-- The quotient of an accepted `n` needs one step of fuel less. -/
theorem DividesExactly.q_lt_pow {T : Tester} (hT : DividesExactly T) {site : Site} {fuel n : Nat}
    (hn : n < 2 ^ site.width.bits) (hdiv : (T site n).div = true) (hfuel : n < site.divisor ^ (fuel + 1)) :
    (T site n).q < site.divisor ^ fuel := by
  rw [← hT site n hn hdiv, Nat.pow_succ] at hfuel
  exact Nat.lt_of_mul_lt_mul_right hfuel

/-- With this much fuel the loop started at `n` ends by a test that rejects, not by its fuel. -/
inductive EndsByRejection (T : Tester) (site : Site) : (fuel n : Nat) → Prop where
  | reject {fuel n : Nat} (hdiv : (T site n).div = false) : EndsByRejection T site (fuel + 1) n
  | accept {fuel n : Nat} (hdiv : (T site n).div = true) (hrest : EndsByRejection T site fuel (T site n).q) :
      EndsByRejection T site (fuel + 1) n

/-- R148: a fuel whose power of the divisor is above `n > 0` is enough. -/
theorem endsByRejection_of_lt_pow {T : Tester} (hT : DividesExactly T) {site : Site} {fuel n : Nat}
    (hn : n < 2 ^ site.width.bits) (hpos : 0 < n) (hfuel : n < site.divisor ^ fuel) :
    EndsByRejection T site fuel n := by
  induction fuel generalizing n with
  | zero => exact absurd hpos (by simpa using hfuel)
  | succ fuel ih =>
    cases hdiv : (T site n).div with
    | false => exact .reject hdiv
    | true =>
      exact .accept hdiv (ih (Nat.lt_of_le_of_lt (hT.q_le hn hdiv) hn) (hT.q_pos hn hpos hdiv)
        (hT.q_lt_pow hn hdiv hfuel))

theorem EndsByRejection.add_fuel {T : Tester} {site : Site} {fuel n : Nat} (h : EndsByRejection T site fuel n)
    (digits extra s : Nat) :
    peelLoop T site digits (fuel + extra) n s = peelLoop T site digits fuel n s := by
  induction h generalizing s with
  | reject hdiv => rw [Nat.add_right_comm, peelLoop_reject _ _ _ hdiv, peelLoop_reject _ _ _ hdiv]
  | accept hdiv _ ih => rw [Nat.add_right_comm, peelLoop_accept _ _ _ hdiv, peelLoop_accept _ _ _ hdiv, ih]

theorem EndsByRejection.end_rejected {T : Tester} {site : Site} {fuel n : Nat} (h : EndsByRejection T site fuel n)
    (digits s : Nat) : (T site (peelLoop T site digits fuel n s).1).div = false := by
  induction h generalizing s with
  | reject hdiv => rwa [peelLoop_reject _ _ _ hdiv]
  | accept hdiv _ ih => rw [peelLoop_accept _ _ _ hdiv, ih]

theorem loopTests_reject {T : Tester} {site : Site} {n : Nat} (fuel : Nat) (hdiv : (T site n).div = false) :
    loopTests T site (fuel + 1) n = 1 := by simp [loopTests, hdiv]

theorem loopTests_accept {T : Tester} {site : Site} {n : Nat} (fuel : Nat) (hdiv : (T site n).div = true) :
    loopTests T site (fuel + 1) n = loopTests T site fuel (T site n).q + 1 := by simp [loopTests, hdiv]

/-- A loop performs one more test than it accepts. -/
theorem EndsByRejection.digits_mul_loopTests {T : Tester} {site : Site} {fuel n : Nat}
    (h : EndsByRejection T site fuel n) (digits s : Nat) :
    digits * loopTests T site fuel n + s = (peelLoop T site digits fuel n s).2 + digits := by
  induction h generalizing s with
  | reject hdiv => rw [peelLoop_reject _ _ _ hdiv, loopTests_reject _ hdiv, Nat.mul_one, Nat.add_comm]
  | accept hdiv _ ih => rw [peelLoop_accept _ _ _ hdiv, loopTests_accept _ hdiv, ← ih, Nat.mul_succ]; omega

/-- A loop's count is bounded by the powers of ten below its input (R124, R148). -/
theorem peelLoop_count_le {T : Tester} (hT : DividesExactly T) {site : Site} {digits : Nat}
    (hd : site.divisor = 10 ^ digits) (fuel : Nat) {n k : Nat} (hn : n < 2 ^ site.width.bits) (hpos : 0 < n)
    (hk : n < 10 ^ (k + 1)) : (peelLoop T site digits fuel n 0).2 ≤ k := by
  have hround := peelLoop_roundTrip hT hd fuel hn 0
  rw [Nat.pow_zero, Nat.mul_one] at hround
  exact exponent_le_of_ten_pow_dvd hpos (Dvd.intro_left _ hround) hk

theorem peel821Tests_of_pos (T : Tester) {n : Nat} (hpos : 0 < n) :
    peel821Tests T n =
      1 + (if fastPath T n then peel21Tests T .w32 (T .w64d1e8 n).q else peel21Tests T .w64 n) := by
  rw [peel821Tests, if_neg hpos.ne']
  split <;> exact Nat.add_comm _ _

/-- By 100 the count is even, which takes an odd bound down to the even number below it. -/
theorem even_count_le {tests count k : Nat} (htests : 2 * tests = count + 2) (hcount : count ≤ 2 * k + 1) :
    count ≤ 2 * k := by omega

/-- R124: the greatest count at a width. -/
def Width.maxCount : Width → Nat
  | .w32 => 9
  | .w64 => 19

theorem Width.lt_pow_maxCount {w : Width} {n : Nat} (hn : n < 2 ^ w.bits) : n < 10 ^ (w.maxCount + 1) :=
  Nat.lt_of_lt_of_le hn (by cases w <;> decide)

/-- Settles O14: the fuel bounds of R148 are powers of the divisors above every `n` of the width, so each loop ends by a
failing test; its count is bounded by the digits of `n`, and by 100 it is even. -/
theorem peelLoopsEndByTheFailingTest : Obligations.PeelLoopsEndByTheFailingTest := by
  intro t w n hpos hn
  have hT := tester_dividesExactly t
  have hn10 : n < 2 ^ w.by10.width.bits := by simpa using hn
  have hn100 : n < 2 ^ w.by100.width.bits := by simpa using hn
  have h10 := endsByRejection_of_lt_pow hT hn10 hpos (Width.lt_by10_pow_fuel1 hn)
  have h100 := endsByRejection_of_lt_pow hT hn100 hpos (Width.lt_by100_pow_fuel21 hn)
  have htests10 := h10.digits_mul_loopTests 1 0
  have htests100 := h100.digits_mul_loopTests 2 0
  have hcount10 := peelLoop_count_le hT (digits := 1) (by simp) w.fuel1 hn10 hpos (Width.lt_pow_maxCount hn)
  have hcount100 := peelLoop_count_le hT (digits := 2) (by simp) w.fuel21 hn100 hpos (Width.lt_pow_maxCount hn)
  refine ⟨fun extra => ⟨h10.add_fuel 1 extra 0, h100.add_fuel 2 extra 0⟩, h10.end_rejected 1 0,
    h100.end_rejected 2 0, ?_, ?_, by omega, by omega, fun _ => peel821Tests_of_pos _ hpos⟩
  · cases w <;> exact hcount10
  · cases w <;> exact even_count_le htests100 hcount100

/-! ## The removers as operations (R66) -/

/-- The eight non-baseline removers of width 32. -/
def peelRemovers32 : List (Half → Instr) :=
  [.rtz32Naive, .rtz32Gm, .rtz32Lemire, .rtz32Ggm, .rtz32Naive21, .rtz32Gm21, .rtz32Lemire21, .rtz32Ggm21]

/-- The twelve non-baseline removers of width 64. -/
def peelRemovers64 : List (Word → Instr) :=
  [.rtz64Naive, .rtz64Gm, .rtz64Lemire, .rtz64Ggm, .rtz64Naive21, .rtz64Gm21, .rtz64Lemire21, .rtz64Ggm21,
   .rtz64Naive821, .rtz64Gm821, .rtz64Lemire821, .rtz64Ggm821]

/-- Every non-baseline remover of width 32 is the one of a technique and a granularity. -/
theorem peelRemovers32_variant :
    ∀ op ∈ peelRemovers32, ∃ t g, ∀ n, instr32 n (.peel t g) = some (op n) := by
  simp only [peelRemovers32, List.forall_mem_cons]
  exact ⟨⟨.naive, .one, fun _ => rfl⟩, ⟨.gm, .one, fun _ => rfl⟩, ⟨.lemire, .one, fun _ => rfl⟩,
    ⟨.ggm, .one, fun _ => rfl⟩, ⟨.naive, .twoOne, fun _ => rfl⟩, ⟨.gm, .twoOne, fun _ => rfl⟩,
    ⟨.lemire, .twoOne, fun _ => rfl⟩, ⟨.ggm, .twoOne, fun _ => rfl⟩, fun _ h => absurd h List.not_mem_nil⟩

/-- Every non-baseline remover of width 64 is the one of a technique and a granularity. -/
theorem peelRemovers64_variant :
    ∀ op ∈ peelRemovers64, ∃ t g, ∀ n, op n = instr64 n (.peel t g) := by
  simp only [peelRemovers64, List.forall_mem_cons]
  exact ⟨⟨.naive, .one, fun _ => rfl⟩, ⟨.gm, .one, fun _ => rfl⟩, ⟨.lemire, .one, fun _ => rfl⟩,
    ⟨.ggm, .one, fun _ => rfl⟩, ⟨.naive, .twoOne, fun _ => rfl⟩, ⟨.gm, .twoOne, fun _ => rfl⟩,
    ⟨.lemire, .twoOne, fun _ => rfl⟩, ⟨.ggm, .twoOne, fun _ => rfl⟩, ⟨.naive, .eightTwoOne, fun _ => rfl⟩,
    ⟨.gm, .eightTwoOne, fun _ => rfl⟩, ⟨.lemire, .eightTwoOne, fun _ => rfl⟩, ⟨.ggm, .eightTwoOne, fun _ => rfl⟩,
    fun _ h => absurd h List.not_mem_nil⟩

/-- R150 for an operation: whatever the technique and the granularity, a 32-bit remover responds with `rtz(n)`. -/
theorem exec_peelRemover32 {op : Half → Instr} (hop : op ∈ peelRemovers32) (n : Half) (s : State) :
    exec (op n) s = .next (s.respondTrim (rtz n.toNat)) := by
  obtain ⟨t, g, h⟩ := peelRemovers32_variant op hop
  rw [exec_instr32 (h n), remover_peel_eq_rtz .w32 t g n.isLt]

/-- R150 for an operation: whatever the technique and the granularity, a 64-bit remover responds with `rtz(n)`. -/
theorem exec_peelRemover64 {op : Word → Instr} (hop : op ∈ peelRemovers64) (n : Word) (s : State) :
    exec (op n) s = .next (s.respondTrim (rtz n.toNat)) := by
  obtain ⟨t, g, h⟩ := peelRemovers64_variant op hop
  rw [h n, exec_instr64, remover_peel_eq_rtz .w64 t g n.isLt]

/-- What a remover of width 32 performs, the baseline among them. -/
theorem exec_remover32 {op : Half → Instr} (hop : op ∈ peelRemovers32 ++ [.rtz32Base]) :
    ∃ v, ∀ n s, exec (op n) s = .next (s.respondTrim (remover .w32 v n.toNat)) := by
  rcases List.mem_append.mp hop with hpeel | hbase
  · obtain ⟨t, g, h⟩ := peelRemovers32_variant op hpeel
    exact ⟨.peel t g, fun n => exec_instr32 (h n)⟩
  · obtain rfl := List.mem_singleton.mp hbase
    exact ⟨.base, fun _ => exec_instr32 rfl⟩

/-- What a remover of width 64 performs, the baseline among them. -/
theorem exec_remover64 {op : Word → Instr} (hop : op ∈ peelRemovers64 ++ [.rtz64Base]) :
    ∃ v, ∀ n s, exec (op n) s = .next (s.respondTrim (remover .w64 v n.toNat)) := by
  rcases List.mem_append.mp hop with hpeel | hbase
  · obtain ⟨t, g, h⟩ := peelRemovers64_variant op hpeel
    exact ⟨.peel t g, fun n s => h n ▸ exec_instr64 n _ s⟩
  · obtain rfl := List.mem_singleton.mp hbase
    exact ⟨.base, fun n => exec_instr64 n .base⟩

/-- Settles O18: the response of every one of the twenty is `rtz(n)` placed in the response fields. -/
theorem allNonBaselineRemoversComputeRtz : Obligations.AllNonBaselineRemoversComputeRtz :=
  ⟨fun _ hop => exec_peelRemover32 hop, fun _ hop => exec_peelRemover64 hop⟩

/-! ### The zero input (R122) -/

/-- 0 is a multiple of every divisor, so a test that meets the contract accepts it with quotient 0. -/
theorem MeetsContract.zero {T : Tester} (hT : MeetsContract T) (site : Site) : T site 0 = { div := true, q := 0 } := by
  obtain ⟨hdiv, hq⟩ := hT site 0 (Nat.two_pow_pos _)
  have hacc : (T site 0).div = true := hdiv.mpr (Nat.zero_mod _)
  rw [TestResult.eq_iff_parts, hacc, hq hacc, Nat.zero_div]
  exact ⟨Iff.rfl, rfl⟩

/-- Settles O20: every remover performs a schedule or the baseline, and those answer the zero pair; the tests by their
contract. -/
theorem zeroInputGivesZeroPair : Obligations.ZeroInputGivesZeroPair := by
  refine ⟨fun op hop s => ?_, fun op hop s => ?_, fun t => (tester_meetsContract t).zero,
    fun T w => ⟨peel1_zero T w, peel21_zero T w, peel821_zero T⟩⟩
  · obtain ⟨v, hexec⟩ := exec_remover32 hop
    rw [hexec, BitVec.toNat_zero, remover_zero]
    rfl
  · obtain ⟨v, hexec⟩ := exec_remover64 hop
    rw [hexec, BitVec.toNat_zero, remover_zero]
    rfl

/-! ### The laws on the response fields (R151, R152, R124) -/

/-- A round trip's pair below `2^64` fits the response fields, and keeps the product there. -/
theorem zext64_roundTrip {p : TrimResult} {n : Nat} (hn : n < 2 ^ 64) (hcount : p.removedCount < 2 ^ 64)
    (h : p.trimmed * 10 ^ p.removedCount = n) :
    (zext64 p.trimmed).toNat * 10 ^ (zext64 p.removedCount).toNat = n := by
  rw [zext64_toNat_of_lt (Nat.lt_of_le_of_lt (le_of_mul_ten_pow_eq h) hn), zext64_toNat_of_lt hcount, h]

/-- R151 on the response fields, for every remover. -/
theorem remover_roundTrip_words (w : Width) (v : Variant) {n : Nat} (hn : n < 2 ^ w.bits) :
    (zext64 (remover w v n).trimmed).toNat * 10 ^ (zext64 (remover w v n).removedCount).toNat = n := by
  have hcount : (remover w v n).removedCount ≤ 19 := remover_removedCount_le w v hn (by cases w <;> decide)
  exact zext64_roundTrip (Nat.lt_of_lt_of_le hn w.two_pow_bits_le) (Nat.lt_of_le_of_lt hcount (by decide))
    (remover_roundTrip w v n hn)

/-- Settles O21: the schedule of each remover, and the baseline, keeps the product. -/
theorem roundTripLaw : Obligations.RoundTripLaw := by
  refine ⟨fun op hop n s => ?_, fun op hop n s => ?_⟩
  · obtain ⟨v, hexec⟩ := exec_remover32 hop
    exact ⟨_, _, hexec n s, remover_roundTrip_words .w32 v n.isLt⟩
  · obtain ⟨v, hexec⟩ := exec_remover64 hop
    exact ⟨_, _, hexec n s, remover_roundTrip_words .w64 v n.isLt⟩

theorem rtz_trimmed_toNat {n : Nat} (hn : n < 2 ^ 64) : (zext64 (rtz n).trimmed).toNat = (rtz n).trimmed :=
  zext64_toNat_of_lt (Nat.lt_of_le_of_lt (rtz_trimmed_le n) hn)

theorem rtz_removedCount_toNat {n : Nat} (hn : n < 2 ^ 64) :
    (zext64 (rtz n).removedCount).toNat = (rtz n).removedCount :=
  zext64_toNat_of_lt (Nat.lt_of_le_of_lt
    (rtz_removedCount_le (Nat.lt_of_lt_of_le hn (by decide : 2 ^ 64 ≤ 10 ^ (19 + 1)))) (by decide))

/-- R152 on the response fields: `rtz(n)` leaves no zero digit for `n > 0`, and 0 for 0. -/
theorem rtz_maximal_words {bits : Nat} (hbits : 2 ^ bits ≤ 2 ^ 64) (n : BitVec bits) :
    (n ≠ 0#bits → (zext64 (rtz n.toNat).trimmed).toNat % 10 ≠ 0) ∧
      (n = 0#bits → zext64 (rtz n.toNat).trimmed = 0#64) := by
  constructor
  · intro hne
    rw [rtz_trimmed_toNat (Nat.lt_of_lt_of_le n.isLt hbits)]
    exact rtz_trimmed_mod_ten_ne_zero (Nat.pos_of_ne_zero (BitVec.toNat_ne_iff_ne.mpr hne))
  · rintro rfl
    rw [BitVec.toNat_zero, rtz_zero]
    rfl

/-- Settles O22: the twenty removers by `rtz`, and the baselines by what they answer for 10. -/
theorem maximalityLaw : Obligations.MaximalityLaw :=
  ⟨fun _ hop n s => ⟨_, _, exec_peelRemover32 hop n s, rtz_maximal_words (by decide) n⟩,
    fun _ hop n s => ⟨_, _, exec_peelRemover64 hop n s, rtz_maximal_words (by decide) n⟩,
    fun _ => ⟨rfl, rfl⟩⟩

/-- R124: for `n > 0` the trimmed value in the response lies between 1 and `n`. -/
theorem rtz_trimmed_words_range {n : Nat} (hn : n < 2 ^ 64) (hpos : 0 < n) :
    1 ≤ (zext64 (rtz n).trimmed).toNat ∧ (zext64 (rtz n).trimmed).toNat ≤ n := by
  rw [rtz_trimmed_toNat hn]
  exact ⟨rtz_trimmed_pos hpos, rtz_trimmed_le n⟩

/-- R124, W = 32: `10^9` has four positive multiples below `2^32`. -/
theorem half_multiples_of_ten_pow_9 (n : Half) :
    0 < n.toNat ∧ 10 ^ 9 ∣ n.toNat ↔ n ∈ [1000000000#32, 2000000000#32, 3000000000#32, 4000000000#32] := by
  have hlt := n.isLt
  simp only [List.mem_cons, List.not_mem_nil, or_false, ← BitVec.toNat_inj, BitVec.reduceToNat]
  omega

/-- R124, W = 64: `10^19` has one positive multiple below `2^64`. -/
theorem word_multiples_of_ten_pow_19 (n : Word) :
    0 < n.toNat ∧ 10 ^ 19 ∣ n.toNat ↔ n = 10000000000000000000#64 := by
  have hlt := n.isLt
  rw [← BitVec.toNat_inj, BitVec.toNat_ofNat]
  omega

/-- Settles O23: the count is bounded by the digits of the width, and its bound is reached at the multiples of the
greatest power of ten. -/
theorem countsStayInRange : Obligations.CountsStayInRange := by
  refine ⟨fun op hop n s => ⟨_, _, exec_peelRemover32 hop n s, ?_⟩,
    fun op hop n s => ⟨_, _, exec_peelRemover64 hop n s, ?_⟩⟩
  · have hn64 : n.toNat < 2 ^ 64 := Nat.lt_of_lt_of_le n.isLt (by decide)
    have hn : n.toNat < 10 ^ (9 + 1) := Nat.lt_of_lt_of_le n.isLt (by decide)
    rw [rtz_removedCount_toNat hn64, rtz_removedCount_eq_iff hn (by decide), half_multiples_of_ten_pow_9]
    exact ⟨rtz_removedCount_le hn, Iff.rfl, rtz_trimmed_words_range hn64⟩
  · have hn : n.toNat < 10 ^ (19 + 1) := Nat.lt_of_lt_of_le n.isLt (by decide)
    rw [rtz_removedCount_toNat n.isLt, rtz_removedCount_eq_iff hn (by decide), word_multiples_of_ten_pow_19]
    exact ⟨rtz_removedCount_le hn, Iff.rfl, rtz_trimmed_words_range n.isLt⟩

end Sys2Proof.Machine

namespace Sys2Proof.Machine

/-! ## The baselines (R178, R212) -/

/-- R66: the two baseline codes are made of the baseline's sub-fields and a width. -/
theorem removerOp_base : removerOp 0#1 .base = 0x0C#6 ∧ removerOp 1#1 .base = 0x1C#6 := by decide

/-- R178: the 32-bit baseline responds with its operand, zero extended, and count 0. -/
theorem exec_rtz32Base (n : Half) (s : State) : exec (.rtz32Base n) s = .next (s.respond (n.setWidth 64) 0#64) :=
  givesLawfulResult_instr32 (n := n) (v := .base) rfl s

/-- R212: the 64-bit baseline responds with its operand and count 0. -/
theorem exec_rtz64Base (n : Word) (s : State) : exec (.rtz64Base n) s = .next (s.respond n 0#64) :=
  givesLawfulResult_instr64 n .base s

/-- Settles O19: each baseline gives its lawful result, and its code is the one decode takes to the baseline, at
`req.a[31:0]` for width 32 and at `req.a` for width 64. -/
theorem baselineIsTheIdentity : Obligations.BaselineIsTheIdentity := by
  obtain ⟨hop32, hop64⟩ := removerOp_base
  refine ⟨exec_rtz32Base, exec_rtz64Base, fun a b => ⟨?_, ?_⟩⟩
  · exact decode_remover32 hop32.symm rfl
  · exact decode_remover64 (r := { op := 0x1C#6, a := a, b := b }) hop64.symm

end Sys2Proof.Machine

namespace Sys2Proof.Machine

/-! ## The forms of a loop body (R206, R209, R211) -/

/-! ### WM at `(64, 100)` (R206) -/

/-- R137: an accepted `n` leaves modulo `2^F` only what the rounding of the multiplier adds to its quotient. -/
theorem wide_remainder_of_accepted {site : Site} {n : Nat} (hn : n < 2 ^ site.width.bits)
    (hdiv : (testWide site n).div = true) :
    n * wideMultiplier site % 2 ^ wideF site = n / site.divisor * wideExcess site := by
  rw [wide_product_split, Nat.mul_add_mod, Nat.mod_eq_of_lt (wide_remainder_lt site hn),
    mod_divisor_eq_zero_of_testWide hn hdiv, Nat.zero_mul, Nat.add_zero]

/-- R206: `e = 52` at `(64, 100)`, and no quotient times 52 reaches bit 64. -/
theorem wide100_excess_lt {n : Nat} (hn : n < 2 ^ 64) :
    n / Site.w64d100.divisor * wideExcess .w64d100 < 2 ^ 64 := by
  have hd : Site.w64d100.divisor = 100 := rfl
  have he : wideExcess .w64d100 = 52 := by decide
  rw [hd, he]
  omega

/-- R206: the exact product modulo `2^71` is `(S mod 128)·2^64 + l`. -/
theorem wide100_remainder (n : Nat) :
    n * wideMultiplier .w64d100 % 2 ^ wideF .w64d100 =
      (n + (wmulNat n wideLow100).1) % 128 * 2 ^ 64 + (wmulNat n wideLow100).2 := by
  obtain ⟨hhigh, hlow⟩ := wide100_halves n
  have hF : wideF .w64d100 = 64 + 7 := rfl
  rw [hF, mod_two_pow_64_add, hhigh, hlow]
  rfl

/-- R206: `S mod 128 = 0` says that the remainder has no bit from 64 up. -/
theorem wide100_remainder_lt_iff (n : Nat) :
    n * wideMultiplier .w64d100 % 2 ^ wideF .w64d100 < 2 ^ 64 ↔ (n + (wmulNat n wideLow100).1) % 128 = 0 := by
  have hlt := wmulNat_low_lt n wideLow100
  rw [wide100_remainder, upper_add_low_lt_iff le_rfl]
  exact and_iff_left hlt

/-- Settles O10: an accepted `n` leaves a remainder below `2^64`, and `2^64` is below the multiplier. -/
theorem wideCompareBy100NeedsOneDisjunct : Obligations.WideCompareBy100NeedsOneDisjunct := by
  intro n hn
  rw [← wide100_remainder_lt_iff]
  constructor
  · intro hdiv
    rw [wide_remainder_of_accepted hn hdiv]
    exact wide100_excess_lt hn
  · intro hlt
    exact (testWide_div_iff _ _).mpr (hlt.trans (by decide))

/-! ### The fast path of ROT and of SH (R209, R211) -/

/-- R209: a quotient that fits in 32 bits is below the threshold, so the comparison with 32 bits decides alone. -/
theorem fastPath_testRot_iff (n : Nat) :
    fastPath testRot n = true ↔ (testRot .w64d1e8 n).q ≤ 0xFFFFFFFF := by
  have hthreshold : 0xFFFFFFFF ≤ rotThreshold .w64d1e8 := by decide
  rw [fastPath_iff, testRot_div_iff]
  exact and_iff_right_of_imp fun hq => hq.trans hthreshold

/-- R211: the quotient of SH at `10^8` is the product without its low 8 bits. -/
theorem testShift_q_le_iff (n : Nat) :
    (testShift .w64d1e8 n).q ≤ 2 ^ 32 - 1 ↔ shiftProduct .w64d1e8 n < 2 ^ 40 := by
  have hr : twoPower .w64d1e8 = 8 := rfl
  rw [testShift_q, hr]
  omega

/-- R211: a product below `2^40` is below the threshold, so the comparison with `2^40` decides alone. -/
theorem fastPath_testShift_iff (n : Nat) :
    fastPath testShift n = true ↔ shiftProduct .w64d1e8 n < 2 ^ 40 := by
  have hthreshold : 2 ^ 40 ≤ shiftThreshold .w64d1e8 := by decide
  rw [fastPath_iff, testShift_div_iff, testShift_q_le_iff]
  exact and_iff_right_of_imp fun hp => hp.trans_le hthreshold

/-- Settles O17: of the fast path's two comparisons the one with 32 bits implies the other. -/
theorem fastPathIsOneComparison : Obligations.FastPathIsOneComparison := fun n =>
  ⟨Bool.eq_iff_iff.mpr ((fastPath_testRot_iff n).trans decide_eq_true_iff.symm),
    Bool.eq_iff_iff.mpr ((fastPath_testShift_iff n).trans decide_eq_true_iff.symm)⟩

end Sys2Proof.Machine

namespace Sys2Proof.Machine

/-! ## The step, by what the code of its request is (R240, R241) -/

theorem step_reset {s : State} {rest : List HostEvent} (h : s.inbox = .reset :: rest) :
    step s = .next (State.resetUnit { s with inbox := rest }) := by
  rw [step, takeEvent_reset h]

/-- R240: a request with a defined code is taken and answered by two results, with no fault. -/
theorem step_of_definedOp {s : State} {r : Request} {rest : List HostEvent} (h : s.inbox = .request r :: rest)
    (hdef : reservedOp r.op = false) : ∃ r0 r1 : Word, step s = .next ((s.take r rest).respond r0 r1) := by
  obtain ⟨i, hd⟩ := exists_decode_instr_of_defined hdef
  rw [step_instr h hd]
  exact exec_responds i _

/-- R241: a request with a reserved code is taken and raises `IllegalOperation`. -/
theorem step_of_reservedOp {s : State} {r : Request} {rest : List HostEvent} (h : s.inbox = .request r :: rest)
    (hres : reservedOp r.op = true) : step s = .next (s.take r rest).raiseIllegalOperation := by
  obtain ⟨why, hd⟩ := (reservedOp_iff_exists_decode r).mp hres
  exact step_reserved h hd

/-- Settles O34: to take a request and to respond change just the fields that the statement names. -/
theorem definedOperationsNeverFault : Obligations.DefinedOperationsNeverFault :=
  fun _ _ _ hs hdef => step_of_definedOp hs hdef

/-- Settles O35: a defined code is answered with fault 0, a reserved one raises the exception, whose fault bit is 1. -/
theorem reservedCodesRaiseIllegalOperation : Obligations.ReservedCodesRaiseIllegalOperation := by
  intro s r rest hs
  cases hop : reservedOp r.op with
  | false =>
    obtain ⟨r0, r1, hstep⟩ := step_of_definedOp hs hop
    exact ⟨_, s.freeIndex, hstep, by simp⟩
  | true => exact ⟨_, s.freeIndex + 1, step_of_reservedOp hs hop, by simp⟩

/-- Settles O36: of the two ways to answer a request, only the exception writes the counter. -/
theorem amongRequestsOnlyTheExceptionTakesAFreeValue :
    Obligations.AmongRequestsOnlyTheExceptionTakesAFreeValue := by
  intro s t r rest hs ht
  cases hop : reservedOp r.op with
  | false =>
    obtain ⟨r0, r1, hstep⟩ := step_of_definedOp hs hop
    rw [hstep] at ht
    cases ht
    simp
  | true =>
    rw [step_of_reservedOp hs hop] at ht
    cases ht
    simp

/-- Settles O41, by what the step finds: nothing, a reset, or a request. -/
theorem everyStepCompletes : Obligations.EveryStepCompletes := by
  intro s
  match hs : s.inbox with
  | [] => exact ⟨s, step_idle hs⟩
  | .reset :: _ => exact ⟨_, step_reset hs⟩
  | .request _ :: _ =>
    obtain ⟨t, hstep, -⟩ := step_request hs
    exact ⟨t, hstep⟩

end Sys2Proof.Machine

namespace Sys2Proof.Machine

/-! ## Reset (R270) -/

/-- Settles O45, by the step that finds a reset. -/
theorem resetLeavesNoResponse : Obligations.ResetLeavesNoResponse :=
  fun _ _ hs => ⟨_, _, step_reset hs⟩

/-- A run of one step is the step. -/
theorem run_one (s : State) : Host.Core.run Sys2Proof.core 1 s = step s :=
  run_succ_of_run (M := Sys2Proof.core) (k := 0) rfl

/-- A run of two steps is the second step, from where the first one leads. -/
theorem run_two {s t : State} (h : step s = .next t) : Host.Core.run Sys2Proof.core 2 s = step t :=
  run_succ_of_run (M := Sys2Proof.core) ((run_one s).trans h)

/-- R20: the same request, taken in two states with the same offers after it, leaves nothing that a claim may read
to tell them apart. -/
theorem step_request_agrees {s s' : State} {r : Request} {rest : List HostEvent}
    (h : s.inbox = .request r :: rest) (h' : s'.inbox = .request r :: rest) :
    ∃ t t' : State, step s = .next t ∧ step s' = .next t' ∧ t.req = t'.req ∧ t.inbox = t'.inbox ∧
      t.rsp.fault = t'.rsp.fault ∧ (reservedOp r.op = false → t.rsp = t'.rsp) := by
  obtain ⟨t, t', ht, ht', hfault, hrsp⟩ := responseDependsOnTheRequestAlone s s' r rest rest h h'
  obtain ⟨u, hu, hreq, hinbox, -⟩ := step_request h
  obtain ⟨u', hu', hreq', hinbox', -⟩ := step_request h'
  cases ht.symm.trans hu
  cases ht'.symm.trans hu'
  exact ⟨t, t', ht, ht', hreq.trans hreq'.symm, hinbox.trans hinbox'.symm, hfault, hrsp⟩

/-- Settles O44: the reset step leaves the request as the oldest offer, and what a step answers to a request does not
depend on the state it is taken in. -/
theorem resetChangesNoLaterResponse : Obligations.ResetChangesNoLaterResponse := by
  intro s r rest
  have hreset : step { s with inbox := .reset :: .request r :: rest } =
      .next (State.resetUnit { s with inbox := .request r :: rest }) := step_reset rfl
  rw [run_two hreset, run_one]
  exact step_request_agrees rfl rfl

/-! ## The round trip through `WMUL` (R280) -/

/-- R100: a product that fits in one word is the low half, and the high half is 0. -/
theorem wmul_of_mul_eq {x y n : Word} (h : x.toNat * y.toNat = n.toNat) : wmul x y = (0#64, n) := by
  have hid := wmul_identity x y
  have hlt := (wmul x y).2.isLt
  have hn := n.isLt
  have hhigh : (wmul x y).1 = 0#64 := BitVec.eq_of_toNat_eq (by rw [BitVec.toNat_zero]; omega)
  have hlow : (wmul x y).2 = n := BitVec.eq_of_toNat_eq (by omega)
  exact Prod.ext hhigh hlow

/-- The power of ten that the host computes from a count of at most 19 fits in a word (R124). -/
theorem ten_pow_word_toNat {k : Nat} (hk : k ≤ 19) : (BitVec.ofNat 64 (10 ^ k)).toNat = 10 ^ k :=
  Nat.mod_eq_of_lt (Nat.lt_of_le_of_lt (Nat.pow_le_pow_right (by decide) hk) (by decide))

/-- Settles O24: R151 on the response fields says that the product is `n`, which fits in one word. -/
theorem hostRoundTripThroughWmul : Obligations.HostRoundTripThroughWmul := by
  intro op hop n s s'
  obtain ⟨v, hexec⟩ := exec_remover64 hop
  refine ⟨_, _, hexec n s, ?_⟩
  rw [exec_wmul, wmul_of_mul_eq (n := n)]
  · rfl
  · rw [ten_pow_word_toNat (remover64_count_le v n)]
    exact remover_roundTrip_words .w64 v n.isLt

/-! ## The number of tests of a step (R279) -/

section
variable {T : Tester} {n : Nat}

/-- R279: by 10 each test but the last one removes a zero. -/
theorem peel1Tests_of_pos (hT : MeetsContract T) {w : Width} (hpos : 0 < n) (hn : n < 2 ^ w.bits) :
    peel1Tests T w n = (rtz n).removedCount + 1 := by
  have hend := endsByRejection_of_lt_pow hT.dividesExactly (site := w.by10) (by simpa using hn) hpos
    (Width.lt_by10_pow_fuel1 hn)
  have htests := hend.digits_mul_loopTests 1 0
  rw [peel1Tests, if_neg hpos.ne', ← peel1_eq_rtz hT w hn, peel1_of_ne_zero T w hpos.ne']
  simpa using htests

/-- The finisher adds at most one to an even count, so it keeps the half. -/
theorem finisher_removedCount_half (T : Tester) (w : Width) (n k : Nat) :
    (finisher T w n (2 * k)).removedCount / 2 = k := by
  cases hdiv : (T w.by10 n).div with
  | false => simp [finisher, hdiv]
  | true =>
    simp only [finisher, hdiv, if_true]
    omega

/-- R279: by 100 each test but the last one removes two zeros, and the finisher tests once more. -/
theorem peel21Tests_of_pos (hT : MeetsContract T) {w : Width} (hpos : 0 < n) (hn : n < 2 ^ w.bits) :
    peel21Tests T w n = (rtz n).removedCount / 2 + 2 := by
  have hend := endsByRejection_of_lt_pow hT.dividesExactly (site := w.by100) (by simpa using hn) hpos
    (Width.lt_by100_pow_fuel21 hn)
  have htests := hend.digits_mul_loopTests 2 0
  have hcount : (peelLoop T w.by100 2 w.fuel21 n 0).2 = 2 * (loopTests T w.by100 w.fuel21 n - 1) := by omega
  rw [peel21Tests, if_neg hpos.ne', ← peel21_eq_rtz hT w hn, peel21_of_ne_zero T w hpos.ne', hcount,
    finisher_removedCount_half]
  omega

/-- R147: on the fast path the quotient has eight zeros less. -/
theorem rtz_removedCount_of_fastPath (hT : MeetsContract T) (hpos : 0 < n) (hn : n < 2 ^ 64)
    (hfast : fastPath T n = true) :
    (rtz n).removedCount = (rtz (T .w64d1e8 n).q).removedCount + 8 := by
  obtain ⟨-, hq⟩ := (fastPath_iff T n).mp hfast
  rw [← peel821_eq_rtz hT hn, peel821_of_fastPath hpos.ne' hfast,
    peel21_eq_rtz hT .w32 (Nat.lt_of_le_sub_one (Nat.two_pow_pos 32) hq)]

/-- R279: on the fast path, the test by `10^8` and the `peel21` of the quotient. -/
theorem peel821Tests_of_fastPath (hT : MeetsContract T) (hpos : 0 < n) (hn : n < 2 ^ 64)
    (hfast : fastPath T n = true) : peel821Tests T n = ((rtz n).removedCount - 8) / 2 + 3 := by
  obtain ⟨hdiv, hq⟩ := (fastPath_iff T n).mp hfast
  have hqpos : 0 < (T .w64d1e8 n).q := hT.dividesExactly.q_pos hn hpos hdiv
  rw [peel821Tests_of_pos T hpos, if_pos hfast,
    peel21Tests_of_pos hT hqpos (w := .w32) (Nat.lt_of_le_sub_one (Nat.two_pow_pos 32) hq),
    rtz_removedCount_of_fastPath hT hpos hn hfast, Nat.add_sub_cancel]
  omega

/-- R279: off the fast path, the test by `10^8` and the `peel21` of `n` itself. -/
theorem peel821Tests_of_not_fastPath (hT : MeetsContract T) (hpos : 0 < n) (hn : n < 2 ^ 64)
    (hslow : ¬ fastPath T n = true) : peel821Tests T n = (rtz n).removedCount / 2 + 3 := by
  rw [peel821Tests_of_pos T hpos, if_neg hslow, peel21Tests_of_pos hT hpos (w := .w64) hn]
  omega

end

theorem peel1Tests_zero (T : Tester) (w : Width) : peel1Tests T w 0 = 0 := rfl
theorem peel21Tests_zero (T : Tester) (w : Width) : peel21Tests T w 0 = 0 := rfl
theorem peel821Tests_zero (T : Tester) : peel821Tests T 0 = 0 := rfl

/-- The fast path's condition as R279 needs it, with the bound on the quotient strict. -/
theorem fastPath_tester_iff (t : Technique) {n : Nat} (hn : n < 2 ^ 64) :
    fastPath (tester t) n = true ↔ n % 10 ^ 8 = 0 ∧ n / 10 ^ 8 < 2 ^ 32 :=
  (fastPathIsTakenExactlyWhereItFits t n hn).trans
    (and_congr_right' (Nat.lt_iff_le_pred (Nat.two_pow_pos 32)).symm)

/-- Settles O15, schedule by schedule; the 8-2-1 ones by whether the fast path is taken. -/
theorem testsPerStepFollowTheZeros : Obligations.TestsPerStepFollowTheZeros := by
  intro t
  have hT := tester_meetsContract t
  refine ⟨fun w n hpos hn => ⟨peel1Tests_of_pos hT hpos hn, peel21Tests_of_pos hT hpos hn⟩, fun n hpos hn => ?_,
    fun w => ⟨peel1Tests_zero _ w, peel21Tests_zero _ w, peel821Tests_zero _⟩⟩
  have hiff := fastPath_tester_iff t hn
  split
  next hfits => exact peel821Tests_of_fastPath hT hpos hn (hiff.mpr hfits)
  next hnot => exact peel821Tests_of_not_fastPath hT hpos hn (mt hiff.mp hnot)

end Sys2Proof.Machine

namespace Sys2Proof.Machine

/-! ## Request words of the spec's programs (spec/95 section 6) -/

/-- A word that is the canonical word of an operation decodes to it (R23, R65). -/
theorem decodeWord_of_encodeWord_eq {w : BitVec 134} {i : Instr} (h : encodeWord i = w) : decodeWord w = .instr i :=
  h ▸ decodeInvertsEncodeOnWords i

/-- Settles O29. The words of P1 and P3 are canonical, so they decode to what they encode; the one of P2 uses its ignored
bits, so its code and its low half of `a` decide; the one of P4 holds a code of a reserved range. -/
theorem specProgramWordsDecode : Obligations.SpecProgramWordsDecode := by
  refine ⟨?p1Product, ?p1Strip, ?p2IgnoredBits, ?p3Lemire21, ?p4Reserved⟩
  case p1Product => exact decodeWord_of_encodeWord_eq (by decide)
  case p1Strip => exact decodeWord_of_encodeWord_eq (by decide)
  case p2IgnoredBits => exact decode_remover32 (v := .peel .gm .twoOne) (by decide) (by decide)
  case p3Lemire21 => exact decodeWord_of_encodeWord_eq (by decide)
  case p4Reserved => exact (decode_eq_reserved_iff _ .wideMultiplyOtherBits).mpr (by decide)

end Sys2Proof.Machine
